-- ==== Sys2Proof/Word.lean ====
section
/-! DEFINITION. The words of the CORE: lanes, bytes, and the 16-lane value that the permutation and the
sponge act on (R7 and R14 of 00_scope.md, R20 of 10_state.md). -/

namespace Sys2Proof

/-- `u32`: a lane, a command word or a status word (R14 of 00_scope.md). -/
abbrev Word := BitVec 32

/-- `u8`: one byte of a payload, of response data or of the pending buffer (R14). -/
abbrev Byte := BitVec 8

/-- A whole state value `S[0..15]`: always exactly 16 lanes (R7 of 00_scope.md, R20 of 10_state.md). -/
abbrev Lanes := Vector Word 16

end Sys2Proof
end

