-- ==== Sys2Proof/Config.lean ====
section
/-! DEFINITION. The implementation parameters of the CORE (section 3 of 00_scope.md, D2 to D5, D10 and D33 of
92_eei_decisions.md). A function of the model takes a `Params`; the tables, whose values no source gives,
are bodiless constants here, and this hardware's value of every parameter is in `Machine.hardware` and `Config.ninst`. -/

namespace Sys2Proof

/-- The admitted values of `RATE`: 256, and 512 only as the refutable alternative (R8 of 00_scope.md, D26). -/
inductive Rate where
  | r256
  | r512
deriving DecidableEq, Repr

/-- `RATE` in bits (R8). -/
def Rate.bits : Rate → Nat
  | .r256 => 256
  | .r512 => 512

/-- A parameter set of the CORE. The tables have the shapes of R11 and D5; `rc r i` is read only for `r < nr`
(log 11). `payloadMax = none` is "unbounded" (R13, D10). -/
structure Params where
  /-- `RATE` (R8). -/
  rate : Rate := .r256
  /-- `DELIM`, the delimiter byte (R9). -/
  delim : Byte := 0x06
  /-- `NR`, the number of rounds (R10). -/
  nr : Nat := 43
  /-- `MTX[j][k]`: input lane `k` contributes to output lane `j` (R11, D6). -/
  mtx : Fin 16 → Fin 16 → Bool
  /-- `ROT[i] = (ROT1[i], ROT2[i])`, amounts in 0..31 (R11, D7). -/
  rot : Fin 16 → Fin 32 × Fin 32
  /-- `RC[r][i]`, the constant of lane `i` in round `r` (R11, D32). -/
  rc : Nat → Fin 16 → Word
  /-- `PAYLOAD_MAX`, the largest payload of a frame: OPEN, unbounded by default (R13, D10; log 7). -/
  payloadMax : Option Nat := none

/-- `BB = RATE / 8`, the block size in bytes (R8). -/
def Params.bb (p : Params) : Nat := p.rate.bits / 8

/-- `RL = RATE / 32`, the number of rate lanes (R8). -/
def Params.rl (p : Params) : Nat := p.rate.bits / 32

namespace Config

/-- The diffusion matrix of this hardware: `OPEN` (R11, D5). FREE VALUE, log 3. -/
opaque mtx : Fin 16 → Fin 16 → Bool

/-- The rotation amounts of this hardware: `OPEN` (R11, D5). FREE VALUE, log 3. -/
opaque rot : Fin 16 → Fin 32 × Fin 32

/-- The round constants of this hardware: `OPEN` (R11, D5). FREE VALUE, log 3. -/
opaque rc : Nat → Fin 16 → Word

/-- `NINST`, the number of instances of a system: OPEN, 1 by default and in this hardware (R13, D33; log 7). -/
def ninst : Nat := 1

/-- `DIGEST_BYTES` (R12). -/
def digestBytes : Nat := 32

/-- The identity string of this spec; no command reads it (R3). -/
def identity : String := "eaglesong-core-v7"

end Config

end Sys2Proof
end

