-- ==== Sys2Proof/Machine/Hardware.lean ====
section
/-! DEFINITION. The parameter set of this hardware (the summary table of section 3 of 00_scope.md). -/

namespace Sys2Proof
namespace Machine

/-- `RATE = 256` (R8, D2), `DELIM = 0x06` (R9, D3), `NR = 43` (R10, D4); `PAYLOAD_MAX` is its default,
unbounded (R13, D10; log 7); the tables are OPEN and stay free (R11; log 3). PRESUMED by the spec itself: the values
of DELIM and NR (log 4). -/
def hardware : Params where
  rate := .r256
  delim := 0x06
  nr := 43
  mtx := Config.mtx
  rot := Config.rot
  rc := Config.rc
  payloadMax := none

end Machine
end Sys2Proof
end

