-- ==== Sys2Proof/Machine/State.lean ====
section
/-! DEFINITION. The state of one CORE instance (10_state.md), with the frame and response paths of its interface
(R40 of 20_memory.md, R60 and R66 of 30_encoding.md), and its value after reset (R32, R230). -/

namespace Sys2Proof
namespace Machine

/-- `PHASE`, the builder's state machine (R23 of 10_state.md). -/
inductive Phase where
  | accepting
  | finalized
deriving DecidableEq, Repr

/-- The error codes 0 to 7 (R200 of 60_exceptions.md). Codes 8 to 15 are never raised and have no constructor. -/
inductive ErrCode where
  /-- `E_NONE` (0). -/
  | noError
  /-- `E_ILLEGAL` (1). -/
  | illegal
  /-- `E_PAYLOAD` (2). -/
  | payload
  /-- `E_ABLEN` (3). -/
  | abLen
  /-- `E_SQLEN` (4). -/
  | sqLen
  /-- `E_OUTLEN` (5). -/
  | outLen
  /-- `E_UPD_AFTER_FIN` (6). -/
  | updAfterFin
  /-- `E_FIN_AFTER_FIN` (7). -/
  | finAfterFin
deriving DecidableEq, Repr

/-- A command frame `(CW, In)` (R60 of 30_encoding.md). -/
structure Frame where
  cw : Word
  payload : List Byte
deriving DecidableEq, Repr

/-- What the host and the platform present to an instance, in the order the instance receives it (R49, R51 of
20_memory.md; R230 and R236 of 70_reset_and_hazards.md). -/
inductive Input where
  /-- The host presents a frame. -/
  | frame (f : Frame)
  /-- The platform asserts reset between two commands. -/
  | reset
  /-- The host presents a frame, and the platform asserts reset while its command executes. -/
  | frameCutByReset (f : Frame)
deriving DecidableEq, Repr

/-- The response `(RERR, STATUS, DATA)` to one frame (R66 of 30_encoding.md). -/
structure Response where
  rerr : BitVec 4
  status : Word
  data : List Byte
deriving DecidableEq, Repr

/-- One CORE instance. -/
structure State where
  /-- `S[0..15]`, the lane register (R20). -/
  lanes : Lanes
  /-- `BUF`, the pending buffer (R24). -/
  buf : List Byte
  /-- `PLEN`, the builder's length counter (R25). -/
  plen : Nat
  /-- `PHASE` (R23). -/
  phase : Phase
  /-- `STATUS.ERR`, the first error latched (R26, R204). -/
  err : ErrCode
  /-- `STATUS.BUSY`: set while a command executes (R26). -/
  busy : Bool
  /-- `In`, the payload of the frame being executed; empty between commands (R16; log 1). -/
  payload : List Byte
  /-- What has been presented and not yet accepted, oldest first (R236; log 2). -/
  inbox : List Input
  /-- The responses returned so far, oldest first (R66, R240; log 2). -/
  responses : List Response
deriving DecidableEq, Repr

/-- No behaviour of this hardware stops the machine: every error is a response and every command completes
(R203 of 60_exceptions.md, R239 of 70_reset_and_hazards.md). So there is no fault to name. -/
inductive Fault
deriving DecidableEq, Repr

/-- Why a command would have no meaning in the model. -/
inductive Refusal where
  /-- Raised by an arm of `exec` whose command is not modelled yet; no arm is such now. Safe: the model stops. -/
  | notModelled (mnemonic : String)
deriving DecidableEq, Repr

/-- The outcome of a step of this machine. -/
abbrev Outcome := Host.Outcome State Fault Refusal

/-- The machine right after reset (R32 of 10_state.md, R230 of 70_reset_and_hazards.md), with nothing presented
and nothing returned (log 2). -/
def State.reset : State where
  lanes := #v[0, 0, 0, 0, 0, 0, 0, 0, 0, 0, 0, 0, 0, 0, 0, 0]
  buf := []
  plen := 0
  phase := .accepting
  err := .noError
  busy := false
  payload := []
  inbox := []
  responses := []

end Machine
end Sys2Proof
end

