-- ==== Sys2Proof/Machine/Flags.lean ====
section
/-! DEFINITION. The STATUS word (R26 of 10_state.md) and the codes it holds (R23, R200). The CORE has no other
flag: no operation sets a carry or an overflow (R28). -/

namespace Sys2Proof
namespace Machine

/-- The 4-bit code of an error, in `RERR` and in `STATUS.ERR` (R200 of 60_exceptions.md). -/
def ErrCode.code : ErrCode → BitVec 4
  | .noError => 0
  | .illegal => 1
  | .payload => 2
  | .abLen => 3
  | .sqLen => 4
  | .outLen => 5
  | .updAfterFin => 6
  | .finAfterFin => 7

/-- The encoding of `PHASE` (R23): ACCEPTING is 0, FINALIZED is 1. -/
def Phase.bit : Phase → BitVec 1
  | .accepting => 0
  | .finalized => 1

/-- `STATUS` (R26): `[31:16]` 0, `[15:8]` PLEN, `[7:6]` 0, `[5]` BUSY, `[4]` PHASE, `[3:0]` ERR. -/
def State.status (s : State) : Word :=
  s.err.code.zeroExtend 32 ||| s.phase.bit.zeroExtend 32 <<< 4 ||| (BitVec.ofBool s.busy).zeroExtend 32 <<< 5 |||
    (BitVec.ofNat 8 s.plen).zeroExtend 32 <<< 8

/-- The latch rule: the first error stays until CLEAR_ERR or reset (R204 of 60_exceptions.md). -/
def latch (held raised : ErrCode) : ErrCode :=
  if held = .noError then raised else held

end Machine
end Sys2Proof
end

