-- ==== Sys2Proof/Syntax.lean ====
section
/-! DEFINITION. The commands of the CORE: one constructor per row of the opcode map (R64 of 30_encoding.md).
A command is what the command word says; the payload `In` belongs to the frame, not to the word (R68), and
stands in the state (log 1). -/

namespace Sys2Proof

/-- The eleven commands (R64). SQUEEZE and HASH carry their operand as an unsigned integer (R62). -/
inductive Instr where
  | permute
  | absorbPad
  | absorbBlk
  | squeeze (n : Nat)
  | hash (outlen : Nat)
  | init
  | update
  | finalize
  | loadState
  | readState
  | clearErr
deriving DecidableEq, Repr

/-- The legal values of `OPC` (R64). -/
inductive Opcode where
  | permute
  | absorbPad
  | absorbBlk
  | squeeze
  | hash
  | init
  | update
  | finalize
  | loadState
  | readState
  | clearErr
deriving DecidableEq, Repr

end Sys2Proof
end

