-- ==== Sys2Proof/Machine/Operands.lean ====
section
/-! DEFINITION. The operands of a command: the payload classes (R63 of 30_encoding.md), and the byte orders in which
payload and response bytes meet the lanes (R16 of 00_scope.md, R41 to R43 of 20_memory.md). -/

namespace Sys2Proof
namespace Machine

/-- The payload classes (R63). -/
inductive PayloadClass where
  | noPayload
  | msg
  | blocks
  | state64
deriving DecidableEq, Repr

/-- `|In|` is within `PAYLOAD_MAX` (R13, R63). -/
def fits (p : Params) (len : Nat) : Bool :=
  match p.payloadMax with
  | none => true
  | some m => decide (len ≤ m)

/-- The legal payload lengths of a class; any other length raises `E_PAYLOAD` (R63, R67). -/
def PayloadClass.admits (p : Params) (c : PayloadClass) (len : Nat) : Bool :=
  match c with
  | .noPayload => decide (len = 0)
  | .msg => fits p len
  | .blocks => fits p len
  | .state64 => decide (len = 64)

/-- The payload class of each command (R63). -/
def payloadClass : Instr → PayloadClass
  | .permute => .noPayload
  | .absorbPad => .msg
  | .absorbBlk => .blocks
  | .squeeze _ => .noPayload
  | .hash _ => .msg
  | .init => .noPayload
  | .update => .msg
  | .finalize => .noPayload
  | .loadState => .state64
  | .readState => .noPayload
  | .clearErr => .noPayload

/-- `BE32`: big-endian assembly, first byte most significant (R16, R41). -/
def be32 (b0 b1 b2 b3 : Byte) : Word :=
  b0.zeroExtend 32 <<< 24 ||| b1.zeroExtend 32 <<< 16 ||| b2.zeroExtend 32 <<< 8 ||| b3.zeroExtend 32

/-- Little-endian assembly, first byte least significant (R43, R190). -/
def le32 (b0 b1 b2 b3 : Byte) : Word :=
  b0.zeroExtend 32 ||| b1.zeroExtend 32 <<< 8 ||| b2.zeroExtend 32 <<< 16 ||| b3.zeroExtend 32 <<< 24

/-- `LE4`: little-endian serialization, least-significant byte first (R16, R42). -/
def le4 (x : Word) : List Byte :=
  [x.extractLsb' 0 8, x.extractLsb' 8 8, x.extractLsb' 16 8, x.extractLsb' 24 8]

/-- `B[p]`. Every use reads inside its sequence, so the 0 of an outside index is never seen (log 12). -/
def byteAt (b : List Byte) (q : Nat) : Byte := b.getD q 0

/-- `B[a .. a+n)` (R16). -/
def slice (b : List Byte) (a n : Nat) : List Byte := (b.drop a).take n

end Machine
end Sys2Proof
end

