-- ==== Sys2Proof/Machine/Ops.lean ====
section
/-! DEFINITION. The shared operations of the commands: rotation (R15), building a whole state value (R16, R17),
accepting a frame (R60, R236), the response (R66), raising an error (R203, R204), and reset (R230). -/

namespace Sys2Proof
namespace Machine

/-- `rotl(x, r) = rotl(x, r mod 32)`, left rotation of a u32 (R15 of 00_scope.md, D7). -/
def rotl (x : Word) (r : Nat) : Word :=
  (x <<< (r % 32)) ||| (x >>> (32 - r % 32))

/-- The lane numbers 0 to 15, in order. -/
def laneNumbers : List (Fin 16) := [0, 1, 2, 3, 4, 5, 6, 7, 8, 9, 10, 11, 12, 13, 14, 15]

/-- The whole state value whose lane `i` is `f i`: all lanes are written at once (R17 of 00_scope.md). -/
def ofLanes (f : Fin 16 → Word) : Lanes :=
  #v[f 0, f 1, f 2, f 3, f 4, f 5, f 6, f 7, f 8, f 9, f 10, f 11, f 12, f 13, f 14, f 15]

/-- The all-zero state value ("create a zero state", R160 of 42_hash_oneshot.md). -/
def zeroLanes : Lanes := ofLanes fun _ => 0

/-- `S <- T` (R16). -/
def State.setLanes (s : State) (T : Lanes) : State := { s with lanes := T }

/-- The instance accepts a frame: it leaves the held inputs, its payload is `In`, and a command executes
(R60 of 30_encoding.md, R236 of 70_reset_and_hazards.md; log 9 for BUSY). -/
def State.accept (s : State) (f : Frame) (held : List Input) : State :=
  { s with inbox := held, payload := f.payload, busy := true }

/-- The command ends and its response is returned: STATUS is sampled after the command (R66, R47), and the
instance is idle again. -/
def State.respond (s : State) (rerr : ErrCode) (data : List Byte) : State :=
  let idle := { s with busy := false, payload := [] }
  { idle with responses := s.responses ++ [{ rerr := rerr.code, status := idle.status, data := data }] }

/-- A command completes without error (`RERR = 0`, R66); STATUS.ERR keeps its value (R204). -/
def State.complete (s : State) (data : List Byte) : State := s.respond .noError data

/-- TAKING AN ERROR, the one shared operation (R203, R204 of 60_exceptions.md): no state write of the command, no
data, RERR is the code, and STATUS.ERR latches the first code. -/
def State.raise (s : State) (e : ErrCode) : State :=
  { s with err := latch s.err e }.respond e []

/-- What stands for a return from an error (R205): the host clears the latch (CLEAR_ERR, R192). -/
def State.clearLatch (s : State) : State := { s with err := .noError }

/-- The payload check that every command makes first (R67 of 30_encoding.md, R202 of 60_exceptions.md). -/
def State.withPayload (s : State) (p : Params) (c : PayloadClass) (body : State) : State :=
  if c.admits p s.payload.length then body else s.raise .payload

/-- Reset (R230): every piece of the spec's state takes its reset value. What the host holds is not the instance's:
the inputs still held and the responses already returned stay (log 6). -/
def State.assertReset (s : State) (held : List Input) : State :=
  { State.reset with inbox := held, responses := s.responses }

end Machine
end Sys2Proof
end

