-- ==== Sys2Proof/Machine/Permutation.lean ====
section
/-! DEFINITION. eaglesong_permutation (40_permutation.md): the four stages, the round, `P`, and PERMUTE. -/

namespace Sys2Proof
namespace Machine

/-- `T[j]` of `Diff`: the exclusive-or of the input lanes that row `j` of MTX selects (R100). -/
def diffLane (p : Params) (S : Lanes) (j : Fin 16) : Word :=
  laneNumbers.foldl (fun acc k => if p.mtx j k then acc ^^^ S.get k else acc) 0

/-- `Diff(S)`, stage 1: a simultaneous update (R100). -/
def diff (p : Params) (S : Lanes) : Lanes := ofLanes (diffLane p S)

/-- Stage 2 on one lane (R102). -/
def circLane (x : Word) (c1 c2 : Nat) : Word := x ^^^ rotl x c1 ^^^ rotl x c2

/-- `Circ(S)`, stage 2 (R102). -/
def circ (p : Params) (S : Lanes) : Lanes :=
  ofLanes fun i => circLane (S.get i) (p.rot i).1.val (p.rot i).2.val

/-- `Inject(S, r)`, stage 3 (R104). -/
def inject (p : Params) (S : Lanes) (r : Nat) : Lanes :=
  ofLanes fun i => S.get i ^^^ p.rc r i

/-- Stage 4 on the pair (lane 2i, lane 2i+1), its four statements in order (R105). -/
def arxPair (a b : Word) : Word × Word :=
  let a := a + b
  let a := rotl a 8
  let b := rotl b 24
  let b := a + b
  (a, b)

/-- The lane `2i` of the pair that lane `j` belongs to (R105). -/
def evenLane (j : Fin 16) : Fin 16 := ⟨2 * (j.val / 2), by omega⟩

/-- The lane `2i+1` of the pair that lane `j` belongs to (R105). -/
def oddLane (j : Fin 16) : Fin 16 := ⟨2 * (j.val / 2) + 1, by omega⟩

/-- `Arx(S)`, stage 4: the pairs are independent (R105). -/
def arx (S : Lanes) : Lanes :=
  ofLanes fun j =>
    let q := arxPair (S.get (evenLane j)) (S.get (oddLane j))
    if j.val % 2 = 0 then q.1 else q.2

/-- `Round(S, r) = Arx(Inject(Circ(Diff(S)), r))` (R107). -/
def roundAt (p : Params) (S : Lanes) (r : Nat) : Lanes := arx (inject p (circ p (diff p S)) r)

/-- `P(S)`: rounds `0, 1, ..., NR-1` in order (R108, R109). -/
def permutation (p : Params) (S : Lanes) : Lanes := (List.range p.nr).foldl (roundAt p) S

/-- PERMUTE (R110), for any parameter set. -/
def runPermute (p : Params) (s : State) : State :=
  s.withPayload p .noPayload <| (s.setLanes (permutation p s.lanes)).complete []

/-- PERMUTE (R110). -/
def execPermute (s : State) : Outcome := .next (runPermute hardware s)

end Machine
end Sys2Proof
end

