-- ==== Sys2Proof/Machine/Sponge.lean ====
section
/-! DEFINITION. eaglesong_sponge_absorb and eaglesong_sponge_squeeze (41_sponge.md): the sponge functions, and
ABSORB_PAD, ABSORB_BLK and SQUEEZE. -/

namespace Sys2Proof
namespace Machine

/-- `Pad(M, q)`: the padded byte at position `q` (R130). -/
def padByte (p : Params) (M : List Byte) (q : Nat) : Byte :=
  if q < M.length then byteAt M q else if q = M.length then p.delim else 0

/-- `NW(M) = ceil((8*|M| + 8) / RATE)`, the number of padded windows, from `|M|` (R131). -/
def windowCount (p : Params) (len : Nat) : Nat := (8 * len + 8 + (p.rate.bits - 1)) / p.rate.bits

/-- Window `w` of the padded message (R133). -/
def paddedWindow (p : Params) (M : List Byte) (w : Nat) : List Byte :=
  (List.range p.bb).map fun q => padByte p M (w * p.bb + q)

/-- `XorWindow(S, W)`: the rate lanes take the big-endian lanes of `W`, the others stay (R132, R136). -/
def xorWindow (p : Params) (S : Lanes) (W : List Byte) : Lanes :=
  ofLanes fun j =>
    if j.val < p.rl then
      S.get j ^^^ be32 (byteAt W (4 * j.val)) (byteAt W (4 * j.val + 1)) (byteAt W (4 * j.val + 2))
        (byteAt W (4 * j.val + 3))
    else S.get j

/-- One window is XORed in, then the permutation runs: the body of the loops of R133 and R134. -/
def absorbWindow (p : Params) (S : Lanes) (W : List Byte) : Lanes := permutation p (xorWindow p S W)

/-- `AbsorbPad(S, M)` (R133). -/
def absorbPad (p : Params) (S : Lanes) (M : List Byte) : Lanes :=
  (List.range (windowCount p M.length)).foldl (fun S w => absorbWindow p S (paddedWindow p M w)) S

/-- `AbsorbBlk(S, M)`, defined for `|M| mod BB = 0` (R134). -/
def absorbBlk (p : Params) (S : Lanes) (M : List Byte) : Lanes :=
  (List.range (M.length / p.bb)).foldl (fun S w => absorbWindow p S (slice M (w * p.bb) p.bb)) S

/-- One output block: the rate lanes, each little-endian (R135, R42). -/
def rateBlock (p : Params) (S : Lanes) : List Byte := (laneNumbers.take p.rl).flatMap fun j => le4 (S.get j)

/-- `Squeeze(S, N)`, defined for `N mod BB = 0`: each block is read before its permutation (R135). -/
def squeeze (p : Params) (S : Lanes) (n : Nat) : Lanes × List Byte :=
  (List.range (n / p.bb)).foldl (fun r _ => (permutation p r.1, r.2 ++ rateBlock p r.1)) (S, [])

/-- ABSORB_PAD (R140), for any parameter set. -/
def runAbsorbPad (p : Params) (s : State) : State :=
  s.withPayload p .msg <| (s.setLanes (absorbPad p s.lanes s.payload)).complete []

/-- ABSORB_PAD (R140). -/
def execAbsorbPad (s : State) : Outcome := .next (runAbsorbPad hardware s)

/-- ABSORB_BLK (R141), for any parameter set. -/
def runAbsorbBlk (p : Params) (s : State) : State :=
  s.withPayload p .blocks <|
    if s.payload.length % p.bb ≠ 0 then s.raise .abLen
    else (s.setLanes (absorbBlk p s.lanes s.payload)).complete []

/-- ABSORB_BLK (R141). -/
def execAbsorbBlk (s : State) : Outcome := .next (runAbsorbBlk hardware s)

/-- SQUEEZE (R142), for any parameter set. -/
def runSqueeze (p : Params) (n : Nat) (s : State) : State :=
  s.withPayload p .noPayload <|
    if n % p.bb ≠ 0 then s.raise .sqLen
    else
      let r := squeeze p s.lanes n
      (s.setLanes r.1).complete r.2

/-- SQUEEZE (R142). -/
def execSqueeze (n : Nat) (s : State) : Outcome := .next (runSqueeze hardware n s)

end Machine
end Sys2Proof
end

