-- ==== Sys2Proof/Machine/OneShot.lean ====
section
/-! DEFINITION. eaglesong_hash_oneshot (42_hash_oneshot.md): the digest function and HASH. -/

namespace Sys2Proof
namespace Machine

/-- `Squeeze32(S)`: the 32 digest bytes, the prefix of `ceil(32 / BB)` blocks (R161). -/
def squeeze32 (p : Params) (S : Lanes) : Lanes × List Byte :=
  let nb := (Config.digestBytes + (p.bb - 1)) / p.bb
  let r := squeeze p S (nb * p.bb)
  (r.1, r.2.take Config.digestBytes)

/-- `Hash(M)`, the EagleSong digest (R160). -/
def digest (p : Params) (M : List Byte) : List Byte := (squeeze32 p (absorbPad p zeroLanes M)).2

/-- HASH (R162), for any parameter set. The scratch state `H` is bound inside `digest`: no lane of `S` is written. -/
def runHash (p : Params) (outlen : Nat) (s : State) : State :=
  s.withPayload p .msg <|
    if outlen ≠ Config.digestBytes then s.raise .outLen
    else s.complete (digest p s.payload)

/-- HASH (R162). -/
def execHash (outlen : Nat) (s : State) : Outcome := .next (runHash hardware outlen s)

end Machine
end Sys2Proof
end

