-- ==== Sys2Proof/Machine/Builder.lean ====
section
/-! DEFINITION. eaglesong_hash_builder (43_builder.md): INIT, UPDATE and FINALIZE. -/

namespace Sys2Proof
namespace Machine

/-- `Upd(S, BUF, C)`: absorbs every whole window of `BUF ++ C` and keeps the remainder (R173). -/
def updBuilder (p : Params) (S : Lanes) (buf c : List Byte) : Lanes × List Byte :=
  let T := buf ++ c
  let nb := T.length / p.bb
  (absorbBlk p S (T.take (nb * p.bb)), T.drop (nb * p.bb))

/-- `Fin(S, BUF)`: pads and absorbs the tail, then squeezes the digest (R176). -/
def finBuilder (p : Params) (S : Lanes) (buf : List Byte) : Lanes × List Byte :=
  squeeze32 p (absorbPad p S buf)

/-- The writes of INIT (R172): a fresh session; STATUS.ERR is not cleared. -/
def State.newSession (s : State) : State :=
  { s with lanes := zeroLanes, buf := [], plen := 0, phase := .accepting }

/-- The writes of UPDATE (R174). -/
def State.updated (s : State) (r : Lanes × List Byte) : State :=
  { s with lanes := r.1, buf := r.2, plen := r.2.length }

/-- The writes of FINALIZE (R177). -/
def State.closed (s : State) (S : Lanes) : State :=
  { s with lanes := S, buf := [], plen := 0, phase := .finalized }

/-- INIT (R172), for any parameter set. -/
def runInit (p : Params) (s : State) : State :=
  s.withPayload p .noPayload <| s.newSession.complete []

/-- INIT (R172). -/
def execInit (s : State) : Outcome := .next (runInit hardware s)

/-- UPDATE (R174), for any parameter set. -/
def runUpdate (p : Params) (s : State) : State :=
  s.withPayload p .msg <|
    if s.phase = .finalized then s.raise .updAfterFin
    else (s.updated (updBuilder p s.lanes s.buf s.payload)).complete []

/-- UPDATE (R174). -/
def execUpdate (s : State) : Outcome := .next (runUpdate hardware s)

/-- FINALIZE (R177), for any parameter set. -/
def runFinalize (p : Params) (s : State) : State :=
  s.withPayload p .noPayload <|
    if s.phase = .finalized then s.raise .finAfterFin
    else
      let r := finBuilder p s.lanes s.buf
      (s.closed r.1).complete r.2

/-- FINALIZE (R177). -/
def execFinalize (s : State) : Outcome := .next (runFinalize hardware s)

end Machine
end Sys2Proof
end

