-- ==== Sys2Proof/Machine/StateAccess.lean ====
section
/-! DEFINITION. State access and status commands (44_state_access.md): LOAD_STATE, READ_STATE and CLEAR_ERR. -/

namespace Sys2Proof
namespace Machine

/-- The 16 lanes of a 64-byte image: lane 0 first, each lane little-endian (R43, R190). -/
def lanesOfImage (b : List Byte) : Lanes :=
  ofLanes fun i =>
    le32 (byteAt b (4 * i.val)) (byteAt b (4 * i.val + 1)) (byteAt b (4 * i.val + 2)) (byteAt b (4 * i.val + 3))

/-- The 64-byte image of the lane register (R43, R191). -/
def imageOfLanes (S : Lanes) : List Byte := laneNumbers.flatMap fun i => le4 (S.get i)

/-- LOAD_STATE (R190), for any parameter set. -/
def runLoadState (p : Params) (s : State) : State :=
  s.withPayload p .state64 <| (s.setLanes (lanesOfImage s.payload)).complete []

/-- LOAD_STATE (R190). -/
def execLoadState (s : State) : Outcome := .next (runLoadState hardware s)

/-- READ_STATE (R191), for any parameter set: no state of the instance is written. -/
def runReadState (p : Params) (s : State) : State :=
  s.withPayload p .noPayload <| s.complete (imageOfLanes s.lanes)

/-- READ_STATE (R191). -/
def execReadState (s : State) : Outcome := .next (runReadState hardware s)

/-- CLEAR_ERR (R192), for any parameter set. -/
def runClearErr (p : Params) (s : State) : State :=
  s.withPayload p .noPayload <| s.clearLatch.complete []

/-- CLEAR_ERR (R192). -/
def execClearErr (s : State) : Outcome := .next (runClearErr hardware s)

end Machine
end Sys2Proof
end

