-- ==== Sys2Proof/Machine/Dispatch.lean ====
section
/-! DEFINITION. What each command does on this hardware, one arm per constructor of `Instr`. -/

namespace Sys2Proof
namespace Machine

def exec (i : Instr) (s : State) : Host.Outcome State Fault Refusal :=
  match i with
  | .permute => Sys2Proof.Machine.execPermute s
  | .absorbPad => Sys2Proof.Machine.execAbsorbPad s
  | .absorbBlk => Sys2Proof.Machine.execAbsorbBlk s
  | .squeeze n => Sys2Proof.Machine.execSqueeze n s
  | .hash outlen => Sys2Proof.Machine.execHash outlen s
  | .init => Sys2Proof.Machine.execInit s
  | .update => Sys2Proof.Machine.execUpdate s
  | .finalize => Sys2Proof.Machine.execFinalize s
  | .loadState => Sys2Proof.Machine.execLoadState s
  | .readState => Sys2Proof.Machine.execReadState s
  | .clearErr => Sys2Proof.Machine.execClearErr s

end Machine
end Sys2Proof
end

