-- ==== Sys2Proof/WellFormed.lean ====
section
/-! DEFINITION. A well-formed command: its operand is a value that `IMM16` can hold (R62 of 30_encoding.md). -/

namespace Sys2Proof

/-- An operand lies in `0..65535` (R62). Only SQUEEZE and HASH have one. -/
def Instr.wf : Instr → Bool
  | .permute => true
  | .absorbPad => true
  | .absorbBlk => true
  | .squeeze n => decide (n < 65536)
  | .hash outlen => decide (outlen < 65536)
  | .init => true
  | .update => true
  | .finalize => true
  | .loadState => true
  | .readState => true
  | .clearErr => true

end Sys2Proof
end

