-- ==== Sys2Proof/Decode.lean ====
section
/-! DEFINITION. Decoding and encoding of command words (R61 to R65 and R67 of 30_encoding.md). The command word
is a 32-bit value with no byte order (R44, R61), so the decoder acts on the value. The payload checks of R67 stand
in the commands, since they need the frame. -/

namespace Sys2Proof

/-- Why a word is illegal; each is `E_ILLEGAL` (R65), checked in the order of R202 of 60_exceptions.md. -/
inductive Illegal where
  /-- `OPC` is outside 0x01..0x0B. -/
  | opcode
  /-- A legal `OPC` with `RSV != 0`. -/
  | reserved
  /-- A legal `OPC` that takes no operand, with `IMM16 != 0`. -/
  | operand
deriving DecidableEq, Repr

/-- `OPC = CW[31:24]` (R61). -/
def opcField (cw : Word) : BitVec 8 := cw.extractLsb' 24 8

/-- `RSV = CW[23:16]` (R61). -/
def rsvField (cw : Word) : BitVec 8 := cw.extractLsb' 16 8

/-- `IMM16 = CW[15:0]` (R61). -/
def immField (cw : Word) : BitVec 16 := cw.extractLsb' 0 16

/-- The opcode map, from `OPC` (R64); every other value is illegal (R65). -/
def Opcode.ofBits (b : BitVec 8) : Option Opcode :=
  match b.toNat with
  | 0x01 => some .permute
  | 0x02 => some .absorbPad
  | 0x03 => some .absorbBlk
  | 0x04 => some .squeeze
  | 0x05 => some .hash
  | 0x06 => some .init
  | 0x07 => some .update
  | 0x08 => some .finalize
  | 0x09 => some .loadState
  | 0x0A => some .readState
  | 0x0B => some .clearErr
  | _ => none

/-- The opcode map, to `OPC` (R64). -/
def Opcode.bits : Opcode → BitVec 8
  | .permute => 0x01
  | .absorbPad => 0x02
  | .absorbBlk => 0x03
  | .squeeze => 0x04
  | .hash => 0x05
  | .init => 0x06
  | .update => 0x07
  | .finalize => 0x08
  | .loadState => 0x09
  | .readState => 0x0A
  | .clearErr => 0x0B

/-- SQUEEZE and HASH take an operand; no other opcode does (R62). -/
def Opcode.takesOperand : Opcode → Bool
  | .squeeze => true
  | .hash => true
  | .permute => false
  | .absorbPad => false
  | .absorbBlk => false
  | .init => false
  | .update => false
  | .finalize => false
  | .loadState => false
  | .readState => false
  | .clearErr => false

/-- The command an opcode selects, with the zero-extended `IMM16` where it takes an operand (R62, R64). -/
def Opcode.instr (op : Opcode) (imm : Nat) : Instr :=
  match op with
  | .permute => .permute
  | .absorbPad => .absorbPad
  | .absorbBlk => .absorbBlk
  | .squeeze => .squeeze imm
  | .hash => .hash imm
  | .init => .init
  | .update => .update
  | .finalize => .finalize
  | .loadState => .loadState
  | .readState => .readState
  | .clearErr => .clearErr

/-- The word part of the decoder of R67, total on every 32-bit word. -/
def decode (cw : Word) : Except Illegal Instr :=
  match Opcode.ofBits (opcField cw) with
  | none => .error .opcode
  | some op =>
    if rsvField cw ≠ 0 then .error .reserved
    else if immField cw ≠ 0 ∧ op.takesOperand = false then .error .operand
    else .ok (op.instr (immField cw).toNat)

/-- The opcode of a command (R64). -/
def Instr.opcode : Instr → Opcode
  | .permute => .permute
  | .absorbPad => .absorbPad
  | .absorbBlk => .absorbBlk
  | .squeeze _ => .squeeze
  | .hash _ => .hash
  | .init => .init
  | .update => .update
  | .finalize => .finalize
  | .loadState => .loadState
  | .readState => .readState
  | .clearErr => .clearErr

/-- The `IMM16` operand of a command, 0 where it takes none (R61, R62). -/
def Instr.operand : Instr → Nat
  | .permute => 0
  | .absorbPad => 0
  | .absorbBlk => 0
  | .squeeze n => n
  | .hash outlen => outlen
  | .init => 0
  | .update => 0
  | .finalize => 0
  | .loadState => 0
  | .readState => 0
  | .clearErr => 0

/-- The command word of a command: `OPC` in bits 31..24, `RSV = 0`, `IMM16` in bits 15..0 (R61). -/
def encode (i : Instr) : Word :=
  i.opcode.bits.zeroExtend 32 <<< 24 ||| (BitVec.ofNat 16 i.operand).zeroExtend 32

/-- The command the decoder reads from the low `nbits` bits of `w`, every bit above them 0. A command word is one
32-bit value, so its bit 0 is bit 0 of `w`. -/
def decodeTableWord (nbits w : Nat) : Option Instr :=
  match decode (BitVec.ofNat 32 (w % 2 ^ nbits)) with
  | .ok i => some i
  | .error _ => none

end Sys2Proof
end

