-- ==== Sys2Proof/Machine/Interface.lean ====
section
/-! DEFINITION. How an instance takes its inputs, one at a time and in order (R49 of 20_memory.md, R60 and R67 of
30_encoding.md, R230 and R236 of 70_reset_and_hazards.md), and the same machine for any parameter set. -/

namespace Sys2Proof
namespace Machine

/-- The frame of a command (R60, R61). -/
def frameOf (i : Instr) (payload : List Byte) : Frame := { cw := encode i, payload := payload }

/-- The instance executes the command of an accepted frame, or answers an illegal word with `E_ILLEGAL` before any
other check (R65, R67, R202). -/
def executeFrame (ex : Instr → State → Outcome) (cw : Word) (s : State) : Outcome :=
  match decode cw with
  | .error _ => .next (s.raise .illegal)
  | .ok i => ex i s

/-- One input is consumed: a frame is executed whole and answered (R47, R49), a reset takes effect, a command cut by
reset is abandoned without a response (R230). With nothing presented the instance holds its state (R213). -/
def takeInput (ex : Instr → State → Outcome) (s : State) : Outcome :=
  match s.inbox with
  | [] => .next s
  | .frame f :: held => executeFrame ex f.cw (s.accept f held)
  | .reset :: held => .next (s.assertReset held)
  | .frameCutByReset _ :: held => .next (s.assertReset held)

/-- The command `i` under any parameter set: a model holds the tables and sizes as parameters of the step function
(R29 of 10_state.md, R8 of 00_scope.md). -/
def runWith (p : Params) (i : Instr) (s : State) : State :=
  match i with
  | .permute => runPermute p s
  | .absorbPad => runAbsorbPad p s
  | .absorbBlk => runAbsorbBlk p s
  | .squeeze n => runSqueeze p n s
  | .hash outlen => runHash p outlen s
  | .init => runInit p s
  | .update => runUpdate p s
  | .finalize => runFinalize p s
  | .loadState => runLoadState p s
  | .readState => runReadState p s
  | .clearErr => runClearErr p s

/-- The step of a CORE with any parameter set; `step` is that of this hardware. -/
def stepWith (p : Params) (s : State) : Outcome := takeInput (fun i s => .next (runWith p i s)) s

/-- The machine with any parameter set; `Sys2Proof.core` is that of this hardware. -/
def coreWith (p : Params) : Host.Core :=
  { State := State, Fault := Fault, Refusal := Refusal, step := stepWith p, reset := State.reset }

/-- The payload that `State.withFetchWord` gives a frame: the shortest one its class admits, of zeros (log 8). -/
def fetchPayload (cw : Word) : List Byte :=
  match decode cw with
  | .error _ => []
  | .ok i => if payloadClass i = .state64 then List.replicate 64 0 else []

/-- The frame of the command word `w`, cut to `nbits` bits. -/
def fetchFrame (nbits w : Nat) : Frame :=
  let cw := BitVec.ofNat 32 (w % 2 ^ nbits)
  { cw := cw, payload := fetchPayload cw }

end Machine
end Sys2Proof
end

