-- ==== Sys2Proof/Machine/Step.lean ====
section
/-! DEFINITION. One step of this hardware: the next input is taken, and its command, if it is a frame, executed. -/

namespace Sys2Proof
namespace Machine

/-- One step of the instance. -/
def step (s : State) : Host.Outcome State Fault Refusal := takeInput exec s

/-- The host presents the frame of the word `w` next (the CORE has no program memory, R27; log 8). -/
def State.withFetchWord (s : State) (nbits w : Nat) : State :=
  { s with inbox := .frame (fetchFrame nbits w) :: s.inbox }

end Machine
end Sys2Proof
end

