-- ==== Sys2Proof/Machine/Assembler.lean ====
section
/-! DEFINITION. The assembler syntax and the pseudo-instructions (R69 and R70 of 30_encoding.md): from a text to
the frames it stands for. The points that R69 leaves open are the model's choice and are listed in log 14. -/

namespace Sys2Proof
namespace Machine

/-- A statement's mnemonic: a command's, or a pseudo-instruction's (R64, R70). -/
inductive Mnemonic where
  | command (op : Opcode)
  | pseudoDigest
  | pseudoBhash
  | pseudoZeroState
deriving DecidableEq, Repr

/-- The mnemonics, in upper case (R69). -/
def mnemonicTable : List (String × Mnemonic) :=
  [("PERMUTE", .command .permute), ("ABSORB_PAD", .command .absorbPad), ("ABSORB_BLK", .command .absorbBlk),
   ("SQUEEZE", .command .squeeze), ("HASH", .command .hash), ("INIT", .command .init),
   ("UPDATE", .command .update), ("FINALIZE", .command .finalize), ("LOAD_STATE", .command .loadState),
   ("READ_STATE", .command .readState), ("CLEAR_ERR", .command .clearErr), ("DIGEST", .pseudoDigest),
   ("BHASH", .pseudoBhash), ("ZERO_STATE", .pseudoZeroState)]

/-- `DIGEST <payload>` is `HASH 32, <payload>` (R70). -/
def digestFrames (payload : List Byte) : List Frame := [frameOf (.hash 32) payload]

/-- `BHASH <payload>` is `INIT ; UPDATE <payload> ; FINALIZE` (R70). -/
def bhashFrames (payload : List Byte) : List Frame :=
  [frameOf .init [], frameOf .update payload, frameOf .finalize []]

/-- `ZERO_STATE` is `LOAD_STATE zeros:64` (R70). -/
def zeroStateFrames : List Frame := [frameOf .loadState (List.replicate 64 0)]

/-- A blank between the parts of a line (log 14). -/
def isBlank (c : Char) : Bool := c == ' ' || c == '\t'

/-- Drops the blanks a text begins with. -/
def skipBlanks : List Char → List Char
  | [] => []
  | c :: cs => if isBlank c then skipBlanks cs else c :: cs

/-- The value of a hex digit, in either case of its letters (log 14). -/
def hexDigit (c : Char) : Option Nat :=
  let n := c.toNat
  if 48 ≤ n ∧ n ≤ 57 then some (n - 48)
  else if 65 ≤ n ∧ n ≤ 70 then some (n - 55)
  else if 97 ≤ n ∧ n ≤ 102 then some (n - 87)
  else none

/-- The value of a decimal digit. -/
def decDigit (c : Char) : Option Nat :=
  let n := c.toNat
  if 48 ≤ n ∧ n ≤ 57 then some (n - 48) else none

/-- A run of digits in a base, most significant first, and what follows it. -/
def digits (base : Nat) (digit : Char → Option Nat) : Nat → List Char → Nat × List Char
  | acc, [] => (acc, [])
  | acc, c :: cs =>
    match digit c with
    | none => (acc, c :: cs)
    | some d => digits base digit (base * acc + d) cs

/-- A decimal integer of at least one digit. -/
def decimal (cs : List Char) : Option (Nat × List Char) :=
  match cs with
  | [] => none
  | c :: _ => if (decDigit c).isSome then some (digits 10 decDigit 0 cs) else none

/-- An operand: a decimal or `0x` hexadecimal integer (R69). -/
def operandText (cs : List Char) : Option (Nat × List Char) :=
  match cs with
  | '0' :: 'x' :: c :: rest => if (hexDigit c).isSome then some (digits 16 hexDigit 0 (c :: rest)) else none
  | _ => decimal cs

/-- The bytes after `hex:`, one per pair of digits (R69); an odd digit is refused. -/
def hexText : List Char → Option (List Byte × List Char)
  | [] => some ([], [])
  | [c] => if (hexDigit c).isSome then none else some ([], [c])
  | c :: d :: rest =>
    match hexDigit c, hexDigit d with
    | none, _ => some ([], c :: d :: rest)
    | some _, none => none
    | some h, some l => (hexText rest).map fun r => (BitVec.ofNat 8 (16 * h + l) :: r.1, r.2)

/-- The bytes after the opening quote of `str:`, with the escapes of R69, up to the closing quote. -/
def stringText : List Char → Option (List Byte × List Char)
  | [] => none
  | '"' :: rest => some ([], rest)
  | '\\' :: 'n' :: rest => (stringText rest).map fun r => (0x0A :: r.1, r.2)
  | '\\' :: '\\' :: rest => (stringText rest).map fun r => (0x5C :: r.1, r.2)
  | '\\' :: '"' :: rest => (stringText rest).map fun r => (0x22 :: r.1, r.2)
  | '\\' :: 'x' :: h :: l :: rest =>
    match hexDigit h, hexDigit l with
    | some a, some b => (stringText rest).map fun r => (BitVec.ofNat 8 (16 * a + b) :: r.1, r.2)
    | _, _ => none
  | '\\' :: _ => none
  | c :: rest => if c.toNat < 128 then (stringText rest).map fun r => (BitVec.ofNat 8 c.toNat :: r.1, r.2) else none

/-- A payload in one of the three forms of R69. That the `n` of `zeros:<n>` is decimal only, so that `zeros:0x40` is
refused, is the model's choice: R69 allows `0x` for the operand and is silent for `n` (log 14). -/
def payloadText (cs : List Char) : Option (List Byte × List Char) :=
  match cs with
  | 'h' :: 'e' :: 'x' :: ':' :: rest => hexText rest
  | 's' :: 't' :: 'r' :: ':' :: '"' :: rest => stringText rest
  | 'z' :: 'e' :: 'r' :: 'o' :: 's' :: ':' :: rest => (decimal rest).map fun r => (List.replicate r.1 0, r.2)
  | _ => none

/-- Nothing but blanks and a comment is left on the line (R69). -/
def atEnd (cs : List Char) : Bool :=
  match skipBlanks cs with
  | [] => true
  | c :: _ => c == ';'

/-- A payload and then the end of the line; an omitted payload is the empty one (R69). -/
def lastPayload (cs : List Char) : Option (List Byte) :=
  if atEnd cs then some []
  else (payloadText (skipBlanks cs)).bind fun r => if atEnd r.2 then some r.1 else none

/-- What follows the mnemonic of a command: its operand, its payload if its class has one, the end (R69). -/
def commandText (op : Opcode) (cs : List Char) : Option Frame :=
  let i := op.instr 0
  let hasPayload := payloadClass i != .noPayload
  if op.takesOperand then
    (operandText (skipBlanks cs)).bind fun r =>
      if 65536 ≤ r.1 then none
      else
        match hasPayload, skipBlanks r.2 with
        | true, ',' :: rest =>
          if atEnd rest then none else (lastPayload rest).map (frameOf (op.instr r.1))
        | _, rest => if atEnd rest then some (frameOf (op.instr r.1) []) else none
  else if hasPayload then (lastPayload cs).map (frameOf i)
  else if atEnd cs then some (frameOf i [])
  else none

/-- The frames of what follows a mnemonic (R69, R70). -/
def statementText (m : Mnemonic) (cs : List Char) : Option (List Frame) :=
  match m with
  | .command op => (commandText op cs).map fun f => [f]
  | .pseudoDigest => (lastPayload cs).map digestFrames
  | .pseudoBhash => (lastPayload cs).map bhashFrames
  | .pseudoZeroState => if atEnd cs then some zeroStateFrames else none

/-- A mnemonic's letters and underscores, and what follows them. -/
def mnemonicText : List Char → List Char × List Char
  | [] => ([], [])
  | c :: cs =>
    if (65 ≤ c.toNat ∧ c.toNat ≤ 90) ∨ c = '_' then
      let r := mnemonicText cs
      (c :: r.1, r.2)
    else ([], c :: cs)

/-- A line: nothing, or one statement, and a comment (R69). -/
def lineText (cs : List Char) : Option (List Frame) :=
  if atEnd cs then some []
  else
    let r := mnemonicText (skipBlanks cs)
    match mnemonicTable.find? fun e => e.1.toList == r.1 with
    | none => none
    | some e =>
      match r.2 with
      | [] => statementText e.2 []
      | c :: _ => if isBlank c || c == ';' then statementText e.2 r.2 else none

/-- The lines of a text. -/
def linesOf : List Char → List (List Char)
  | [] => [[]]
  | '\n' :: cs => [] :: linesOf cs
  | c :: cs =>
    match linesOf cs with
    | [] => [[c]]
    | l :: ls => (c :: l) :: ls

/-- The frames of a program text, one statement per line (R69). -/
def assemble (text : String) : Option (List Frame) :=
  (linesOf text.toList).foldr (fun l acc => (lineText l).bind fun a => acc.map fun b => a ++ b) (some [])

end Machine
end Sys2Proof
end

