-- ==== Sys2Proof/Machine/System.lean ====
section
/-! DEFINITION. A system of independent instances (R33 of 10_state.md, R50 of 20_memory.md, R211 of
60_exceptions.md): each has its own state, they share only the ROM tables, and the platform addresses them (log 5). -/

namespace Sys2Proof
namespace Machine

/-- `NINST` instances, each from its own reset (R211). `NINST` is OPEN: a platform may give another number than the
default of this hardware (R13, D33; log 7). -/
def systemReset (ninst : Nat := Config.ninst) : List State := List.replicate ninst State.reset

/-- Instance `k` takes its next step; no other instance is read or written (R33). A number that names no instance steps
nothing (log 5). -/
def stepInstance (k : Nat) (sys : List State) : Host.Outcome (List State) Fault Refusal :=
  match sys[k]? with
  | none => .next sys
  | some s =>
    match step s with
    | .next s' => .next (sys.set k s')
    | .fault r => .fault r
    | .refused r => .refused r

/-- The instances step in the order of a schedule; every schedule is admitted (R50). -/
def runSchedule : List Nat → List State → Host.Outcome (List State) Fault Refusal
  | [], sys => .next sys
  | k :: ks, sys =>
    match stepInstance k sys with
    | .next sys' => runSchedule ks sys'
    | .fault r => .fault r
    | .refused r => .refused r

/-- The host or the platform presents an input to an instance; it is held behind the earlier ones (R236). -/
def State.present (s : State) (x : Input) : State := { s with inbox := s.inbox ++ [x] }

/-- An input presented to instance `k` of a system (R211). -/
def presentTo (k : Nat) (x : Input) (sys : List State) : List State := sys.modify k (·.present x)

end Machine
end Sys2Proof
end

