-- ==== Sys2Proof/Machine/Errors.lean ====
section
/-! DEFINITION. The checks of the commands as one table (R201 and R202 of 60_exceptions.md), and the number of
permutations a command runs (R238 of 70_reset_and_hazards.md). The commands themselves make their checks in their
own rules' order; a law says that the two agree. -/

namespace Sys2Proof
namespace Machine

/-- The extra check of each command (R201). -/
def extraCheck (p : Params) (i : Instr) (s : State) : ErrCode :=
  match i with
  | .permute => .noError
  | .absorbPad => .noError
  | .absorbBlk => if s.payload.length % p.bb = 0 then .noError else .abLen
  | .squeeze n => if n % p.bb = 0 then .noError else .sqLen
  | .hash outlen => if outlen = Config.digestBytes then .noError else .outLen
  | .init => .noError
  | .update => if s.phase = .finalized then .updAfterFin else .noError
  | .finalize => if s.phase = .finalized then .finAfterFin else .noError
  | .loadState => .noError
  | .readState => .noError
  | .clearErr => .noError

/-- The error a decoded command raises, `E_PAYLOAD` first (R202). -/
def errorOf (p : Params) (i : Instr) (s : State) : ErrCode :=
  if (payloadClass i).admits p s.payload.length then extraCheck p i s else .payload

/-- The number of permutations a command that raises no error runs: the bounds of its own loops (R238). -/
def loopPermutations (p : Params) (i : Instr) (s : State) : Nat :=
  let L := s.payload.length
  let digestBlocks := (Config.digestBytes + (p.bb - 1)) / p.bb
  match i with
  | .permute => 1
  | .absorbPad => windowCount p L
  | .absorbBlk => L / p.bb
  | .squeeze n => n / p.bb
  | .hash _ => windowCount p L + digestBlocks
  | .init => 0
  | .update => (s.buf.length + L) / p.bb
  | .finalize => windowCount p s.buf.length + digestBlocks
  | .loadState => 0
  | .readState => 0
  | .clearErr => 0

/-- The permutations a command runs; none when it raises an error (R238). -/
def permutations (p : Params) (i : Instr) (s : State) : Nat :=
  if errorOf p i s = .noError then loopPermutations p i s else 0

end Machine
end Sys2Proof
end

