-- ==== Sys2Proof/Safety.lean ====
section
/-! DEFINITION. The terms of the claims: what holds at every command boundary (R31 of 10_state.md), what a command
leaves and answers, the sessions of the equivalence law (R171 of 43_builder.md), and a conformant parameter set
(R11 of 00_scope.md). -/

namespace Sys2Proof
namespace Machine

/-- The command-boundary invariant: items 2 and 4 of R31, and the instance idle (BUSY reads 0, R26). Item 1, "S has
exactly 16 lanes", holds by the type of `lanes`. -/
structure AtBoundary (s : State) : Prop where
  bufLength : s.buf.length = s.plen
  plenBound : s.plen < hardware.bb
  finalizedEmpty : s.phase = .finalized → s.buf = [] ∧ s.plen = 0
  idle : s.busy = false
  noPayload : s.payload = []

/-- Item 3 of R31, for the message `A` the session represents: BUF is the tail of `A`, and while the session accepts
input the absorbed part is whole windows (log 15). -/
structure Represents (s : State) (A : List Byte) : Prop where
  tailWithin : s.plen ≤ A.length
  tail : s.buf = A.drop (A.length - s.plen)
  wholeWindows : s.phase = .accepting → (A.length - s.plen) % hardware.bb = 0

/-- The message after one step: the UPDATE payloads since the last INIT or reset, without any UPDATE that raised an
error (R31, item 3). -/
def messageAfter (s : State) (A : List Byte) : List Byte :=
  match s.inbox with
  | [] => A
  | .reset :: _ => []
  | .frameCutByReset _ :: _ => []
  | .frame f :: held =>
    match decode f.cw with
    | .error _ => A
    | .ok i =>
      if errorOf hardware i (s.accept f held) ≠ .noError then A
      else
        match i with
        | .init => []
        | .update => A ++ f.payload
        | .permute => A
        | .absorbPad => A
        | .absorbBlk => A
        | .squeeze _ => A
        | .hash _ => A
        | .finalize => A
        | .loadState => A
        | .readState => A
        | .clearErr => A

/-- `t` is `s` with one command ended and answered: one response more, its STATUS that of `t` (R66), and BUSY 0 (R26).
That no payload is held after it is about the model's own field (log 1). -/
structure Answered (s t : State) (rerr : ErrCode) (data : List Byte) : Prop where
  response : t.responses = s.responses ++ [{ rerr := rerr.code, status := t.status, data := data }]
  idle : t.busy = false
  noPayload : t.payload = []
  held : t.inbox = s.inbox

/-- The builder's state is the same in `s` and `t`. -/
structure SameBuilder (s t : State) : Prop where
  buf : t.buf = s.buf
  plen : t.plen = s.plen
  phase : t.phase = s.phase

/-- `t` is `s` after a command that raised `e` (R203): no state of the command written, no data, the code answered
and latched. -/
structure Raised (s t : State) (e : ErrCode) : Prop where
  answered : Answered s t e []
  lanes : t.lanes = s.lanes
  builder : SameBuilder s t
  err : t.err = if s.err = .noError then e else s.err

/-- `Ws` is the byte sequence `B` cut into whole windows (R19 of 00_scope.md). -/
structure IsWindows (p : Params) (Ws : List (List Byte)) (B : List Byte) : Prop where
  whole : ∀ W ∈ Ws, W.length = p.bb
  bytes : Ws.flatten = B

/-- The loop of R133 and R134 of 41_sponge.md over given windows: each is XORed in, then the permutation runs once. -/
def absorbEach (p : Params) (S : Lanes) (Ws : List (List Byte)) : Lanes :=
  Ws.foldl (fun S W => permutation p (xorWindow p S W)) S

/-- The length of DATA when the command completes (R66). -/
def dataLength (i : Instr) : Nat :=
  match i with
  | .squeeze n => n
  | .hash _ => 32
  | .finalize => 32
  | .readState => 64
  | .permute => 0
  | .absorbPad => 0
  | .absorbBlk => 0
  | .init => 0
  | .update => 0
  | .loadState => 0
  | .clearErr => 0

/-- The commands that may write `S` (R21 of 10_state.md). -/
def mayWriteLanes (i : Instr) : Bool :=
  match i with
  | .permute => true
  | .absorbPad => true
  | .absorbBlk => true
  | .squeeze _ => true
  | .init => true
  | .update => true
  | .finalize => true
  | .loadState => true
  | .hash _ => false
  | .readState => false
  | .clearErr => false

/-- The commands that may write `BUF` and `PLEN` (R24, R25). -/
def mayWriteBuffer (i : Instr) : Bool :=
  match i with
  | .init => true
  | .update => true
  | .finalize => true
  | .permute => false
  | .absorbPad => false
  | .absorbBlk => false
  | .squeeze _ => false
  | .loadState => false
  | .hash _ => false
  | .readState => false
  | .clearErr => false

/-- An input that starts a session (R170): INIT, or a reset. -/
def startsSession (x : Input) : Bool :=
  match x with
  | .frame f => f == frameOf .init []
  | .reset => true
  | .frameCutByReset _ => true

/-- A frame whose word is UPDATE. -/
def isUpdate (f : Frame) : Bool :=
  match decode f.cw with
  | .ok i => i == .update
  | .error _ => false

/-- A frame that is no part of the session's message and writes no `S`: HASH, READ_STATE, CLEAR_ERR (R235), or an
illegal word (R65, R203). -/
def leavesSession (f : Frame) : Bool :=
  match decode f.cw with
  | .ok i => !mayWriteLanes i
  | .error _ => true

/-- The message of a session: its UPDATE payloads, in order (R171). -/
def sessionMessage (fs : List Frame) : List Byte :=
  fs.flatMap fun f => if isUpdate f then f.payload else []

/-- The number of frames among the inputs that are executed and answered (R66): all but those a reset cuts. -/
def answeredFrames (xs : List Input) : Nat :=
  xs.countP fun x =>
    match x with
    | .frame _ => true
    | .reset => false
    | .frameCutByReset _ => false

/-- The bytes of a number written in hexadecimal, most significant first, for the digests of 95_test_vectors.md. -/
def digestOfNat (n : Nat) : List Byte := (List.range 32).map fun i => BitVec.ofNat 8 (n >>> (8 * (31 - i)))

/-- The 35-byte input of vector K-2: 34 ones and a newline (C2 of 90_conflicts.md, D27). -/
def inputK2 : List Byte := List.replicate 34 0x31 ++ [0x0A]

/-- The 35-byte input of vector K-3: 32 ones, two twos and a newline (C2, D27). -/
def inputK3 : List Byte := List.replicate 32 0x31 ++ [0x32, 0x32, 0x0A]

/-- The digest of K-1. -/
def digestK1 : List Byte := digestOfNat 0x9e4452fc7aed93d7240b7b55263792befd1be09252b456401122ba71a56f62a0

/-- The digest of K-2. -/
def digestK2 : List Byte := digestOfNat 0xa50a3310f78cbaeadcffe2d46262119eeeda9d6568b4df1b636399742c867aca

/-- The digest of K-3. -/
def digestK3 : List Byte := digestOfNat 0xd7b68a8ba4cfc606e86ed7e2ca3244ff27b28bb24c28ee09af4b1f47af9b9236

/-- A conformant parameter set reproduces the known answers K-1 to K-3 (R11); K-4 follows from K-2 by R171. No source
gives the tables, so this hardware's constants are not shown conformant (log 3). -/
structure Conformant (p : Params) : Prop where
  emptyInput : digest p [] = digestK1
  firstVector : digest p inputK2 = digestK2
  secondVector : digest p inputK3 = digestK3

end Machine
end Sys2Proof
end

