-- ==== Sys2Proof/Certificates/Slice0/Obligations.lean ====
section
/-! DEFINITION. The statements for the provers. `hardware` is this hardware's parameter set; a statement about `p`
holds for every parameter set. -/

open Sys2Proof Sys2Proof.Machine

/-! ## Words -/

/-- Every well-formed command is read back from its word (R61, R62, R64 of 30_encoding.md). -/
def Obligations.DecodeOfEncode : Prop :=
  ∀ i : Instr, i.wf = true → decode (encode i) = .ok i

/-- Every word the decoder accepts is the one word of a well-formed command: no bit of a word is ignored (R65). -/
def Obligations.EncodeOfDecode : Prop :=
  ∀ (cw : Word) (i : Instr), decode cw = .ok i → i.wf = true ∧ encode i = cw

/-- The rows of the opcode map by mask and match, with the zero-extended operand (R62, R64). -/
def Obligations.DecodeMatchesOpcodeMap : Prop :=
  ∀ cw : Word,
    (decode cw = .ok .permute ↔ cw = 0x01000000) ∧ (decode cw = .ok .absorbPad ↔ cw = 0x02000000) ∧
    (decode cw = .ok .absorbBlk ↔ cw = 0x03000000) ∧ (decode cw = .ok .init ↔ cw = 0x06000000) ∧
    (decode cw = .ok .update ↔ cw = 0x07000000) ∧ (decode cw = .ok .finalize ↔ cw = 0x08000000) ∧
    (decode cw = .ok .loadState ↔ cw = 0x09000000) ∧ (decode cw = .ok .readState ↔ cw = 0x0A000000) ∧
    (decode cw = .ok .clearErr ↔ cw = 0x0B000000) ∧
    (∀ n, decode cw = .ok (.squeeze n) ↔
      cw &&& (0xFFFF0000 : Word) = 0x04000000 ∧ n = (cw &&& (0x0000FFFF : Word)).toNat) ∧
    (∀ n, decode cw = .ok (.hash n) ↔
      cw &&& (0xFFFF0000 : Word) = 0x05000000 ∧ n = (cw &&& (0x0000FFFF : Word)).toNat)

/-- Words written out from R61 and R64: those that R71 infers, and one for each command it leaves out. -/
def Obligations.ExampleWords : Prop :=
  decode 0x01000000 = .ok .permute ∧ decode 0x02000000 = .ok .absorbPad ∧ decode 0x03000000 = .ok .absorbBlk ∧
  decode 0x04000020 = .ok (.squeeze 32) ∧ decode 0x04000040 = .ok (.squeeze 64) ∧
  decode 0x05000020 = .ok (.hash 32) ∧ decode 0x06000000 = .ok .init ∧ decode 0x07000000 = .ok .update ∧
  decode 0x08000000 = .ok .finalize ∧ decode 0x09000000 = .ok .loadState ∧ decode 0x0A000000 = .ok .readState ∧
  decode 0x0B000000 = .ok .clearErr ∧ decode 0x01000001 = .error .operand ∧ decode 0x0C000000 = .error .opcode

/-! ## Taking inputs -/

/-- A step of an instance with a frame waiting is the meaning of the decoded command, in the state that has accepted
the frame: the frame has left the inputs (R60, R67), its payload is `In`, and BUSY is set (R26). That the payload stands
in a field of the state is the model's choice (log 1), and that BUSY is set when the frame is accepted is the model's
reading of R26 (log 9). -/
def Obligations.StepRunsDecodedCommand : Prop :=
  ∀ (s : State) (f : Frame) (held : List Input) (i : Instr),
    s.inbox = .frame f :: held → decode f.cw = .ok i →
      step s = exec i { s with inbox := held, payload := f.payload, busy := true }

/-- The illegal words of R65, by their fields, answer E_ILLEGAL and change nothing but the latch (R203, R204); every
other word runs as the command it decodes to (R67). The field for the payload, empty after the answer, is the model's
choice (log 1), and BUSY set when the frame is accepted is the model's reading of R26 (log 9). -/
def Obligations.IllegalWordsRaiseEIllegal : Prop :=
  ∀ (s : State) (f : Frame) (held : List Input), s.inbox = .frame f :: held →
    let opc := (f.cw.extractLsb' 24 8).toNat
    let rsv := (f.cw.extractLsb' 16 8).toNat
    let imm := (f.cw.extractLsb' 0 16).toNat
    if opc < 0x01 ∨ 0x0B < opc ∨ rsv ≠ 0 ∨ (imm ≠ 0 ∧ opc ≠ 0x04 ∧ opc ≠ 0x05) then
      ∃ t, step s = .next t ∧ Raised (s.accept f held) t .illegal
    else ∃ i, decode f.cw = .ok i ∧ i.wf = true ∧ step s = exec i (s.accept f held)

/-- With nothing presented the instance holds its state (R213). -/
def Obligations.IdleInstanceHoldsState : Prop :=
  ∀ s : State, s.inbox = [] → step s = .next s

/-- A reset, between commands or in the middle of one, leaves the reset state and returns no response (R230). That the
inputs still held stay, and the responses already returned, is the model's choice (log 6). -/
def Obligations.ResetInputLeavesResetState : Prop :=
  ∀ (s : State) (x : Input) (held : List Input),
    (x = .reset ∨ ∃ f, x = .frameCutByReset f) → s.inbox = x :: held →
      ∃ t, step s = .next t ∧ (∀ i, t.lanes.get i = 0) ∧ t.buf = [] ∧ t.plen = 0 ∧ t.phase = .accepting ∧
        t.err = .noError ∧ t.busy = false ∧ t.status = 0 ∧ t.payload = [] ∧ t.responses = s.responses ∧
        t.inbox = held

/-- The reset values of R32. The empty interface of the reset state is the model's choice (log 2). -/
def Obligations.ResetStateValues : Prop :=
  (∀ i, State.reset.lanes.get i = 0) ∧ State.reset.buf = [] ∧ State.reset.plen = 0 ∧
    State.reset.phase = .accepting ∧ State.reset.err = .noError ∧ State.reset.busy = false ∧
    State.reset.status = 0

/-- INIT and then CLEAR_ERR, from any state, leave an instance as a reset leaves it: what R231 infers from
R230, R172 and R192. The fields `payload` and `inbox`, compared too, are the model's choice (logs 1, 2 and 6). -/
def Obligations.InitClearErrEqualsReset : Prop :=
  ∀ (s : State) (held : List Input),
    s.inbox = .frame (frameOf .init []) :: .frame (frameOf .clearErr []) :: held →
      ∃ t u, Sys2Proof.core.run 2 s = .next t ∧ step { s with inbox := .reset :: held } = .next u ∧
        t.lanes = u.lanes ∧ t.buf = u.buf ∧ t.plen = u.plen ∧ t.phase = u.phase ∧ t.err = u.err ∧
        t.busy = u.busy ∧ t.payload = u.payload ∧ t.status = u.status ∧ t.inbox = u.inbox

/-- The step of this hardware is the parametric step at its parameter set (R29, R8), whose windows have 32 bytes in 8
lanes (R8), and whose permutation is 43 rounds, each its four stages in order with its own row of constants. That the
rounds are 43 and the delimiter 0x06 (R10, R9) the spec marks as general knowledge (log 4); that PAYLOAD_MAX is
unbounded is the model's reading of R13 (log 7). -/
def Obligations.StepIsParametricStep : Prop :=
  (∀ i s, exec i s = .next (runWith hardware i s)) ∧ (∀ s, step s = stepWith hardware s) ∧
  hardware.bb = 32 ∧ hardware.rl = 8 ∧ hardware.delim = 0x06 ∧ hardware.payloadMax = none ∧
  ∀ S : Lanes, permutation hardware S =
    (List.range 43).foldl (fun S r => arx (inject hardware (circ hardware (diff hardware S)) r)) S

/-! ## What each command does -/

/-- PERMUTE (R110). -/
def Obligations.PermuteResult : Prop :=
  ∀ s : State, s.payload = [] →
    ∃ t, exec .permute s = .next t ∧ Answered s t .noError [] ∧ t.lanes = permutation hardware s.lanes ∧
      SameBuilder s t ∧ t.err = s.err

/-- ABSORB_PAD (R140), with a payload of any length: PAYLOAD_MAX is unbounded here (log 7). -/
def Obligations.AbsorbPadResult : Prop :=
  ∀ s : State,
    ∃ t, exec .absorbPad s = .next t ∧ Answered s t .noError [] ∧
      t.lanes = absorbPad hardware s.lanes s.payload ∧ SameBuilder s t ∧ t.err = s.err

/-- ABSORB_BLK (R141), with any number of blocks: PAYLOAD_MAX is unbounded here (log 7). -/
def Obligations.AbsorbBlkResult : Prop :=
  ∀ s : State, s.payload.length % 32 = 0 →
    ∃ t, exec .absorbBlk s = .next t ∧ Answered s t .noError [] ∧
      t.lanes = absorbBlk hardware s.lanes s.payload ∧ SameBuilder s t ∧ t.err = s.err

/-- SQUEEZE (R142, R135): every output byte, and the lanes left behind. -/
def Obligations.SqueezeResult : Prop :=
  ∀ (s : State) (n : Nat), s.payload = [] → n % 32 = 0 →
    ∃ t D, exec (.squeeze n) s = .next t ∧ Answered s t .noError D ∧ D.length = n ∧
      (∀ (i : Nat) (j : Fin 16) (k : Nat), i < n / 32 → j.val < 8 → k < 4 →
        D[i * 32 + 4 * j.val + k]? = some ((((permutation hardware)^[i] s.lanes).get j).extractLsb' (8 * k) 8)) ∧
      t.lanes = (permutation hardware)^[n / 32] s.lanes ∧ SameBuilder s t ∧ t.err = s.err

/-- HASH (R162): the digest of the payload, and no state of the instance written. PAYLOAD_MAX is unbounded here
(log 7). -/
def Obligations.HashResult : Prop :=
  ∀ s : State,
    ∃ t, exec (.hash 32) s = .next t ∧ Answered s t .noError (digest hardware s.payload) ∧ t.lanes = s.lanes ∧
      SameBuilder s t ∧ t.err = s.err

/-- INIT (R172). -/
def Obligations.InitResult : Prop :=
  ∀ s : State, s.payload = [] →
    ∃ t, exec .init s = .next t ∧ Answered s t .noError [] ∧ (∀ i, t.lanes.get i = 0) ∧ t.buf = [] ∧ t.plen = 0 ∧
      t.phase = .accepting ∧ t.err = s.err

/-- UPDATE (R173, R174): whole windows of `BUF ++ In` are absorbed, the remainder is kept. That it completes with any
payload rests on PAYLOAD_MAX unbounded (log 7), and that no payload is held after it is about the model's own field
(log 1). -/
def Obligations.UpdateResult : Prop :=
  ∀ s : State, s.phase = .accepting →
    let T := s.buf ++ s.payload
    let whole := T.length / 32 * 32
    ∃ t, exec .update s = .next t ∧ Answered s t .noError [] ∧
      t.lanes = absorbBlk hardware s.lanes (T.take whole) ∧ t.buf = T.drop whole ∧ t.plen = T.length % 32 ∧
      t.plen = t.buf.length ∧ (T.length < 32 → t.lanes = s.lanes ∧ t.buf = T) ∧ t.phase = .accepting ∧
      t.err = s.err

/-- FINALIZE (R176, R177). -/
def Obligations.FinalizeResult : Prop :=
  ∀ s : State, s.payload = [] → s.phase = .accepting →
    ∃ t, exec .finalize s = .next t ∧ Answered s t .noError (finBuilder hardware s.lanes s.buf).2 ∧
      t.lanes = (finBuilder hardware s.lanes s.buf).1 ∧ t.buf = [] ∧ t.plen = 0 ∧ t.phase = .finalized ∧
      t.err = s.err

/-- LOAD_STATE (R190, R43): byte `4i + k` of the payload is bits `8k+7..8k` of lane `i`. -/
def Obligations.LoadStateResult : Prop :=
  ∀ s : State, s.payload.length = 64 →
    ∃ t, exec .loadState s = .next t ∧ Answered s t .noError [] ∧
      (∀ (i : Fin 16) (k : Nat), k < 4 →
        some ((t.lanes.get i).extractLsb' (8 * k) 8) = s.payload[4 * i.val + k]?) ∧
      SameBuilder s t ∧ t.err = s.err

/-- READ_STATE (R191, R43): the 64-byte image, and no state of the instance written. -/
def Obligations.ReadStateResult : Prop :=
  ∀ s : State, s.payload = [] →
    ∃ t D, exec .readState s = .next t ∧ Answered s t .noError D ∧ D.length = 64 ∧
      (∀ (i : Fin 16) (k : Nat), k < 4 → D[4 * i.val + k]? = some ((s.lanes.get i).extractLsb' (8 * k) 8)) ∧
      t.lanes = s.lanes ∧ SameBuilder s t ∧ t.err = s.err

/-- CLEAR_ERR (R192). -/
def Obligations.ClearErrResult : Prop :=
  ∀ s : State, s.payload = [] →
    ∃ t, exec .clearErr s = .next t ∧ Answered s t .noError [] ∧ t.err = .noError ∧
      t.status.extractLsb' 0 4 = 0 ∧ t.lanes = s.lanes ∧ SameBuilder s t

/-! ## Errors, STATUS, and who writes what -/

/-- Every command with an error raises it and writes nothing else (R201, R203), for every parameter set. E_PAYLOAD
is raised, whatever else is wrong with the command (R202), exactly when the payload has a length that R63 and R67 do not
give its command: any byte where it takes none, not 64 bytes for LOAD_STATE, a message longer than a bounded
PAYLOAD_MAX. -/
def Obligations.ErrorsArePrecise : Prop :=
  (∀ (i : Instr) (s : State), errorOf hardware i s ≠ .noError →
    ∃ t, exec i s = .next t ∧ Raised s t (errorOf hardware i s)) ∧
  (∀ (p : Params) (i : Instr) (s : State), errorOf p i s ≠ .noError → Raised s (runWith p i s) (errorOf p i s)) ∧
  (∀ (p : Params) (i : Instr) (s : State),
    i ∈ [.permute, .init, .finalize, .readState, .clearErr] ∨ (∃ n, i = .squeeze n) →
      (errorOf p i s = .payload ↔ s.payload ≠ [])) ∧
  (∀ (p : Params) (s : State), errorOf p .loadState s = .payload ↔ s.payload.length ≠ 64) ∧
  ∀ (p : Params) (i : Instr) (s : State), i ∈ [.absorbPad, .absorbBlk, .update] ∨ (∃ n, i = .hash n) →
    (errorOf p i s = .payload ↔ ∃ m, p.payloadMax = some m ∧ m < s.payload.length)

/-- Every command without an error completes, with the number of data bytes R66 gives it, for every parameter set. -/
def Obligations.ErrorFreeCommandsComplete : Prop :=
  (∀ (i : Instr) (s : State), errorOf hardware i s = .noError →
    ∃ t D, exec i s = .next t ∧ Answered s t .noError D ∧ D.length = dataLength i ∧
      (i ≠ .clearErr → t.err = s.err)) ∧
  ∀ (p : Params) (i : Instr) (s : State), errorOf p i s = .noError →
    ∃ D, Answered s (runWith p i s) .noError D ∧ D.length = dataLength i ∧
      (i ≠ .clearErr → (runWith p i s).err = s.err)

/-- RERR of every frame: the first error that applies, in the order E_ILLEGAL, E_PAYLOAD, phase, length (R202). -/
def Obligations.ResponseReportsFirstError : Prop :=
  ∀ (s : State) (f : Frame) (held : List Input), s.inbox = .frame f :: held →
    ∃ t r, step s = .next t ∧ t.responses = s.responses ++ [r] ∧
      r.rerr = (match decode f.cw with
        | .error _ => 1
        | .ok i =>
          if (payloadClass i).admits hardware f.payload.length = false then 2
          else if i = .update ∧ s.phase = .finalized then 6
          else if i = .finalize ∧ s.phase = .finalized then 7
          else if i = .absorbBlk ∧ f.payload.length % 32 ≠ 0 then 3
          else
            match i with
            | .squeeze n => if n % 32 = 0 then 0 else 4
            | .hash outlen => if outlen = 32 then 0 else 5
            | .permute | .absorbPad | .absorbBlk | .init | .update | .finalize | .loadState | .readState
            | .clearErr => 0)

/-- The latch of STATUS.ERR (R204): the first error stays; only CLEAR_ERR and reset clear it. -/
def Obligations.ErrLatchesFirstError : Prop :=
  (∀ (s t : State) (f : Frame) (held : List Input), s.inbox = .frame f :: held → step s = .next t →
    ∃ r, t.responses = s.responses ++ [r] ∧
      (r.rerr ≠ 0 → s.err = .noError → t.err.code = r.rerr) ∧
      (r.rerr ≠ 0 → s.err ≠ .noError → t.err = s.err) ∧
      (r.rerr = 0 → f.cw ≠ encode .clearErr → t.err = s.err) ∧
      (r.rerr = 0 → f.cw = encode .clearErr → t.err = .noError)) ∧
  ∀ (s t : State) (x : Input) (held : List Input), (x = .reset ∨ ∃ f, x = .frameCutByReset f) →
    s.inbox = x :: held → step s = .next t → t.err = .noError

/-- The fields of STATUS (R26); PHASE is 0 for ACCEPTING and 1 for FINALIZED (R23). -/
def Obligations.StatusLayout : Prop :=
  ∀ s : State, s.plen < 256 →
    s.status.extractLsb' 0 4 = s.err.code ∧ s.status.extractLsb' 4 1 = s.phase.bit ∧
    (s.status.extractLsb' 4 1 = 1 ↔ s.phase = .finalized) ∧ (s.status.extractLsb' 4 1 = 0 ↔ s.phase = .accepting) ∧
    s.status.extractLsb' 5 1 = BitVec.ofBool s.busy ∧ s.status.extractLsb' 6 2 = 0 ∧
    (s.status.extractLsb' 8 8).toNat = s.plen ∧ s.status.extractLsb' 16 16 = 0

/-- No response ever holds a reserved code, a reserved STATUS bit or BUSY (R26, R200, R47), and no response with an
error holds data (R66). -/
def Obligations.ResponsesHoldNoReservedValue : Prop :=
  ∀ s t : State, step s = .next t → ∀ r ∈ t.responses, r ∈ s.responses ∨
    (r.rerr.toNat ≤ 7 ∧ (r.status.extractLsb' 0 4).toNat ≤ 7 ∧ r.status.extractLsb' 5 1 = 0 ∧
      r.status.extractLsb' 6 2 = 0 ∧ r.status.extractLsb' 16 16 = 0 ∧ (r.rerr ≠ 0 → r.data = []))

/-- Only the commands the spec names write `BUF`, `PLEN`, `PHASE` and `ERR` (R23 to R25, R204) and `S` (the table that
R21 infers from the commands' rules). -/
def Obligations.OnlyNamedCommandsWriteState : Prop :=
  ∀ (i : Instr) (s t : State), exec i s = .next t →
    (mayWriteLanes i = false → t.lanes = s.lanes) ∧
    (mayWriteBuffer i = false → t.buf = s.buf ∧ t.plen = s.plen) ∧
    (t.phase ≠ s.phase → (i = .init ∧ t.phase = .accepting) ∨ (i = .finalize ∧ t.phase = .finalized)) ∧
    (errorOf hardware i s = .noError → i ≠ .clearErr → t.err = s.err) ∧ t.inbox = s.inbox

/-- After FINALIZE, whatever frames but INIT follow, the builder stays finalized, and UPDATE and FINALIZE raise
errors (R179, R234). That an UPDATE with any payload raises this error rests on PAYLOAD_MAX unbounded (log 7): under a
bound, a longer one raises E_PAYLOAD first (R202). -/
def Obligations.FinalizedUntilInit : Prop :=
  ∀ (s : State) (fs : List Frame), s.phase = .finalized → s.inbox = fs.map .frame →
    (∀ f ∈ fs, decode f.cw ≠ .ok .init) →
      ∃ t, Sys2Proof.core.run fs.length s = .next t ∧ t.phase = .finalized ∧
        (∀ c, ∃ u, exec .update { t with payload := c } = .next u ∧ Raised { t with payload := c } u .updAfterFin) ∧
        ∃ u, exec .finalize { t with payload := [] } = .next u ∧ Raised { t with payload := [] } u .finAfterFin

/-- The permutations that the commands run. The lanes or the data that each command leaves are those of its loop, one
permutation for each window absorbed and for each block read, and their number is that of the table of R238, which the
spec infers from the sponge, digest and builder rules. The table `permutations` is the model's own count of these
loops (log 10). That the payloads may have any length rests on PAYLOAD_MAX unbounded (log 7), and the delimiter 0x06 is
general knowledge by the spec's own words (R9; log 4). The last permutation of HASH is of a scratch state that nothing shows (R162). -/
def Obligations.PermutationCounts : Prop :=
  let padded (M : List Byte) (k : Nat) : List Byte := M ++ (0x06 :: List.replicate k 0)
  (∀ s : State, s.payload = [] → permutations hardware .permute s = 1 ∧
    ∃ t, exec .permute s = .next t ∧ t.lanes = permutation hardware s.lanes) ∧
  (∀ (s : State) (Ws : List (List Byte)) (k : Nat), k < 32 → IsWindows hardware Ws (padded s.payload k) →
    Ws.length = s.payload.length / 32 + 1 ∧
    permutations hardware .absorbPad s = Ws.length ∧ permutations hardware (.hash 32) s = Ws.length + 1 ∧
    (∃ t, exec .absorbPad s = .next t ∧ t.lanes = absorbEach hardware s.lanes Ws) ∧
    ∃ t, exec (.hash 32) s = .next t ∧ Answered s t .noError (rateBlock hardware (absorbEach hardware zeroLanes Ws))) ∧
  (∀ (s : State) (Ws : List (List Byte)), IsWindows hardware Ws s.payload →
    Ws.length = s.payload.length / 32 ∧ permutations hardware .absorbBlk s = Ws.length ∧
    ∃ t, exec .absorbBlk s = .next t ∧ t.lanes = absorbEach hardware s.lanes Ws) ∧
  (∀ (s : State) (n : Nat), s.payload = [] → n % 32 = 0 → permutations hardware (.squeeze n) s = n / 32 ∧
    ∃ t, exec (.squeeze n) s = .next t ∧ t.lanes = (permutation hardware)^[n / 32] s.lanes) ∧
  (∀ (s : State) (Ws : List (List Byte)) (rest : List Byte), s.phase = .accepting → s.buf.length = s.plen →
    rest.length < 32 → ∀ whole : List Byte, IsWindows hardware Ws whole → whole ++ rest = s.buf ++ s.payload →
    Ws.length = (s.plen + s.payload.length) / 32 ∧ permutations hardware .update s = Ws.length ∧
    ∃ t, exec .update s = .next t ∧ t.lanes = absorbEach hardware s.lanes Ws ∧ t.buf = rest) ∧
  (∀ (s : State) (k : Nat), s.payload = [] → s.phase = .accepting → (padded s.buf k).length = 32 →
    permutations hardware .finalize s = 2 ∧
    ∃ t, exec .finalize s = .next t ∧
      t.lanes = permutation hardware (permutation hardware (xorWindow hardware s.lanes (padded s.buf k)))) ∧
  (∀ s : State, ∀ i ∈ [Instr.init, .loadState, .readState, .clearErr], permutations hardware i s = 0) ∧
  ∀ (i : Instr) (s : State), errorOf hardware i s ≠ .noError → permutations hardware i s = 0 ∧
    ∃ t, exec i s = .next t ∧ t.lanes = s.lanes

/-! ## Invariants -/

/-- The command-boundary invariant (what R31 infers from R174 and R177) holds at reset (R32). That no payload is
held at reset is the model's choice (log 1). -/
def Obligations.ResetKeepsBoundary : Prop := AtBoundary State.reset

/-- Every step keeps the command-boundary invariant, which R31 infers from R174 and R177. That no payload is held is
about the model's own field (log 1). -/
def Obligations.StepKeepsBoundary : Prop :=
  ∀ s t : State, AtBoundary s → step s = .next t → AtBoundary t

/-- The reset state represents the empty message (item 3 of R31, an inference of the spec, as log 15 reads it). -/
def Obligations.ResetRepresentsEmptyMessage : Prop := Represents State.reset []

/-- Every step keeps item 3 of R31: BUF is the unabsorbed tail of the UPDATE payloads since the last INIT or
reset. R31 infers it; that the multiple of BB is claimed only while ACCEPTING is the model's reading (log 15). -/
def Obligations.StepKeepsRepresentedMessage : Prop :=
  ∀ (s t : State) (A : List Byte), AtBoundary s → Represents s A → step s = .next t → Represents t (messageAfter s A)

/-- Every command completes: an instance consumes everything presented to it, one step each, and answers every frame
that no reset cuts (R66; what R239 infers). That the frames held behind a reset are executed and answered, and that the
responses returned before it stay, is the model's choice (log 6); R239 speaks of an instance that is not reset. -/
def Obligations.EveryFrameIsAnswered : Prop :=
  ∀ s : State, ∃ t, Sys2Proof.core.run s.inbox.length s = .next t ∧ t.inbox = [] ∧
    s.responses <+: t.responses ∧ t.responses.length = s.responses.length + answeredFrames s.inbox

/-! ## The permutation -/

/-- Left rotation: bit `i` goes to bit `i + r mod 32` (R15). -/
def Obligations.RotlMovesBits : Prop :=
  (∀ (x : Word) (r i : Nat), i < 32 → (rotl x r).getLsbD ((i + r) % 32) = x.getLsbD i) ∧
    (∀ (x : Word) (r : Nat), rotl x r = rotl x (r % 32)) ∧ ∀ x : Word, rotl x 0 = x

/-- Stage 1 at one bit: the exclusive-or over `k` of `MTX[j][k] AND S[k][b]` (R100). -/
def Obligations.DiffIsMatrixProduct : Prop :=
  ∀ (p : Params) (S : Lanes) (j : Fin 16) (b : Nat),
    ((diff p S).get j).getLsbD b =
      (List.finRange 16).foldl (fun acc k => xor acc (p.mtx j k && (S.get k).getLsbD b)) false

/-- The corner cases of stage 1 (R101). -/
def Obligations.DiffCornerCases : Prop :=
  (∀ (p : Params) (A B : Lanes) (j : Fin 16),
    (diff p (ofLanes fun i => A.get i ^^^ B.get i)).get j = (diff p A).get j ^^^ (diff p B).get j) ∧
  (∀ p : Params, diff p zeroLanes = zeroLanes) ∧
  (∀ (p : Params) (S : Lanes) (j : Fin 16), (∀ k, p.mtx j k = false) → (diff p S).get j = 0) ∧
  (∀ (p : Params) (S : Lanes), (∀ j k, p.mtx j k = decide (j = k)) → diff p S = S) ∧
  ∀ (p : Params) (k : Fin 16) (v : Word) (j : Fin 16),
    (diff p (ofLanes fun i => if i = k then v else 0)).get j = if p.mtx j k then v else 0

/-- Stage 2 and its corner cases (R102, R103), with the worked example the spec infers from R102. -/
def Obligations.CircCornerCases : Prop :=
  (∀ (p : Params) (S : Lanes) (i : Fin 16), (circ p S).get i =
    S.get i ^^^ rotl (S.get i) (p.rot i).1.val ^^^ rotl (S.get i) (p.rot i).2.val) ∧
  (∀ (x : Word) (c : Nat), circLane x 0 c = rotl x c) ∧ (∀ (x : Word) (c : Nat), circLane x c c = x) ∧
  (∀ c d : Nat, circLane 0 c d = 0) ∧ (∀ c d : Nat, circLane 0xFFFFFFFF c d = 0xFFFFFFFF) ∧
  (∀ (x y : Word) (c d : Nat), circLane (x ^^^ y) c d = circLane x c d ^^^ circLane y c d) ∧
  circLane 0x00000001 2 4 = 0x00000015

/-- Stage 3 XORs the round's constants in, and is its own inverse (R104). -/
def Obligations.InjectIsInvolution : Prop :=
  ∀ (p : Params) (S : Lanes) (r : Nat),
    (∀ i, (inject p S r).get i = S.get i ^^^ p.rc r i) ∧ inject p (inject p S r) r = S ∧
      ((∀ i, p.rc r i = 0) → inject p S r = S)

/-- Stage 4 on the pair (lane 2i, lane 2i+1), for i = 0..7 (R105). -/
def Obligations.ArxMixesPairs : Prop :=
  ∀ (S : Lanes) (i : Nat) (h : i < 8),
    let a := S.get ⟨2 * i, by omega⟩
    let b := S.get ⟨2 * i + 1, by omega⟩
    (arx S).get ⟨2 * i, by omega⟩ = rotl (a + b) 8 ∧
      (arx S).get ⟨2 * i + 1, by omega⟩ = rotl (a + b) 8 + rotl b 24

/-- The pair map of stage 4 is a bijection with the inverse that R106 infers from R105, and its corner cases. -/
def Obligations.ArxPairIsBijection : Prop :=
  (∀ a b : Word, let q := arxPair a b
    rotl (q.2 - q.1) 8 = b ∧ rotl q.1 24 - b = a) ∧
  (∀ a' b' : Word, let b := rotl (b' - a') 8
    arxPair (rotl a' 24 - b) b = (a', b')) ∧
  arxPair 0 0 = (0, 0) ∧ arxPair 0xFFFFFFFF 0x00000001 = (0x00000000, 0x01000000) ∧
  arxPair 0xFFFFFFFF 0xFFFFFFFF = (0xFFFFFEFF, 0xFFFFFEFE) ∧
  arxPair 0x00000001 0x00000000 = (0x00000100, 0x00000100)

/-- The permutation is its rounds in increasing order, each the four stages in order (R107 to R109). -/
def Obligations.PermutationRunsRoundsInOrder : Prop :=
  ∀ (p : Params) (S : Lanes) (n : Nat),
    permutation { p with nr := 0 } S = S ∧
    permutation { p with nr := n + 1 } S =
      arx (inject p (circ p (diff p (permutation { p with nr := n } S))) n)

/-- `k` successive PERMUTE commands compute the `k`-fold composition of `P` (R110). -/
def Obligations.PermuteCommandsCompose : Prop :=
  ∀ (s : State) (k : Nat) (held : List Input),
    s.inbox = List.replicate k (.frame (frameOf .permute [])) ++ held →
      ∃ t, Sys2Proof.core.run k s = .next t ∧ t.lanes = (permutation hardware)^[k] s.lanes ∧
        SameBuilder s t ∧ t.err = s.err ∧ t.inbox = held

/-! ## The sponge -/

/-- The number of padded windows is `ceil((8*|M| + 8) / RATE)` and `floor(|M| / BB) + 1`, and the delimiter falls in the
last one: R131, whose second formula is an inference of the spec. -/
def Obligations.WindowCountIsFloorPlusOne : Prop :=
  ∀ (p : Params) (M : List Byte),
    let nw := windowCount p M.length
    (nw - 1) * p.rate.bits < 8 * M.length + 8 ∧ 8 * M.length + 8 ≤ nw * p.rate.bits ∧
      nw = M.length / p.bb + 1 ∧ (nw - 1) * p.bb ≤ M.length ∧ M.length < nw * p.bb ∧
      ((nw - 1) * p.bb = M.length ↔ M.length % p.bb = 0)

/-- The last padded window at the two boundaries: a whole window of padding after a whole number of blocks, which
changes only lane 0, and the delimiter in the last byte after all but one byte: what R137 infers from R130
and R131. -/
def Obligations.PaddingAtBlockBoundaries : Prop :=
  ∀ (p : Params) (M : List Byte),
    (M.length % p.bb = 0 →
      paddedWindow p M (windowCount p M.length - 1) = p.delim :: List.replicate (p.bb - 1) 0 ∧
      ∀ (S : Lanes) (j : Fin 16), (xorWindow p S (p.delim :: List.replicate (p.bb - 1) 0)).get j =
        if j = 0 then S.get j ^^^ p.delim.zeroExtend 32 <<< 24 else S.get j) ∧
    (M.length % p.bb = p.bb - 1 →
      paddedWindow p M (windowCount p M.length - 1) =
        M.drop (M.length / p.bb * p.bb) ++ [p.delim])

/-- Where a window's bytes land: byte `4j + b` is XORed into bits `31-8b..24-8b` of lane `j` and the
capacity lanes are not touched (R132, R41). -/
def Obligations.XorWindowPlacesBytesBigEndian : Prop :=
  ∀ (p : Params) (S : Lanes) (W : List Byte), W.length = p.bb →
    (∀ (j : Fin 16) (b : Nat), j.val < p.rl → b < 4 →
      some (((xorWindow p S W).get j).extractLsb' (24 - 8 * b) 8) =
        (W[4 * j.val + b]?).map fun x => (S.get j).extractLsb' (24 - 8 * b) 8 ^^^ x) ∧
    ∀ j : Fin 16, p.rl ≤ j.val → (xorWindow p S W).get j = S.get j

/-- A squeezed block reads the rate lanes only (R135, R42): little-endian, and whatever the capacity lanes hold (what
R136 infers). -/
def Obligations.BlockReadsRateLanes : Prop :=
  ∀ (p : Params) (S : Lanes),
    (rateBlock p S).length = p.bb ∧
    (∀ (j : Fin 16) (k : Nat), j.val < p.rl → k < 4 →
      (rateBlock p S)[4 * j.val + k]? = some ((S.get j).extractLsb' (8 * k) 8)) ∧
    ∀ T : Lanes, (∀ j : Fin 16, j.val < p.rl → T.get j = S.get j) → rateBlock p T = rateBlock p S

/-- Composition law 1, which R138 infers from R133 to R135. -/
def Obligations.AbsorbBlkThenAbsorbPad : Prop :=
  ∀ (p : Params) (S : Lanes) (A B : List Byte), A.length % p.bb = 0 →
    absorbPad p S (A ++ B) = absorbPad p (absorbBlk p S A) B

/-- The loop of R134: nothing for the empty message, one XOR of the window and one permutation for one window, and
composition law 2, which R138 infers from R133 to R135. -/
def Obligations.AbsorbBlkComposes : Prop :=
  (∀ (p : Params) (S : Lanes), absorbBlk p S [] = S) ∧
  (∀ (p : Params) (S : Lanes) (W : List Byte), W.length = p.bb → absorbBlk p S W = permutation p (xorWindow p S W)) ∧
  ∀ (p : Params) (S : Lanes) (A B : List Byte), A.length % p.bb = 0 → B.length % p.bb = 0 →
    absorbBlk p S (A ++ B) = absorbBlk p (absorbBlk p S A) B

/-- The loop of R135: nothing for no output, one block read and then one permutation for one block, and composition
law 3, which R138 infers from R133 to R135. -/
def Obligations.SqueezeComposes : Prop :=
  (∀ (p : Params) (S : Lanes), squeeze p S 0 = (S, [])) ∧
  (∀ (p : Params) (S : Lanes), squeeze p S p.bb = (permutation p S, rateBlock p S)) ∧
  ∀ (p : Params) (S : Lanes) (m n : Nat), m % p.bb = 0 → n % p.bb = 0 →
    squeeze p S (m + n) =
      ((squeeze p (squeeze p S m).1 n).1, (squeeze p S m).2 ++ (squeeze p (squeeze p S m).1 n).2)

/-- Two SQUEEZE commands return the bytes of one, and leave the same lanes (R142, and law 3 that R138
infers). -/
def Obligations.SqueezeInTwoCommands : Prop :=
  ∀ (s : State) (m n : Nat) (held : List Input), m + n < 65536 → m % 32 = 0 → n % 32 = 0 →
    s.inbox = .frame (frameOf (.squeeze m) []) :: .frame (frameOf (.squeeze n) []) :: held →
      ∃ t u r1 r2 r, Sys2Proof.core.run 2 s = .next t ∧ t.responses = s.responses ++ [r1, r2] ∧
        step { s with inbox := .frame (frameOf (.squeeze (m + n)) []) :: held } = .next u ∧
        u.responses = s.responses ++ [r] ∧ r1.data ++ r2.data = r.data ∧ t.lanes = u.lanes

/-- LOAD_STATE and then READ_STATE return the payload (R191). -/
def Obligations.LoadThenReadReturnsPayload : Prop :=
  ∀ (s : State) (X : List Byte) (held : List Input), X.length = 64 →
    s.inbox = .frame (frameOf .loadState X) :: .frame (frameOf .readState []) :: held →
      ∃ t r1 r2, Sys2Proof.core.run 2 s = .next t ∧ t.responses = s.responses ++ [r1, r2] ∧
        r1.rerr = 0 ∧ r1.data = [] ∧ r2.rerr = 0 ∧ r2.data = X

/-! ## The digest and the builder -/

/-- The digest is 32 bytes: lanes 0 to 7 of the absorbed state, little-endian, whichever the rate (R160, R161). -/
def Obligations.DigestIsFirstEightLanes : Prop :=
  ∀ (p : Params) (M : List Byte),
    (digest p M).length = 32 ∧
    ∀ (j : Fin 16) (k : Nat), j.val < 8 → k < 4 →
      (digest p M)[4 * j.val + k]? = some (((absorbPad p zeroLanes M).get j).extractLsb' (8 * k) 8)

/-- The digest of a message shorter than 32 bytes does not depend on the rate: what R163 infers from R133
and R161. -/
def Obligations.ShortDigestIgnoresRate : Prop :=
  ∀ (p : Params) (M : List Byte), M.length < 32 →
    digest { p with rate := .r256 } M = digest { p with rate := .r512 } M

/-- A message shorter than a window is absorbed with padding as exactly one window, which is the message, the delimiter,
and zeros (R133, R130), with one permutation. FINALIZE absorbs BUF so, and one more permutation follows (R176, and what
R178 infers from it). -/
def Obligations.FinalizeAbsorbsOneWindow : Prop :=
  ∀ (p : Params) (S : Lanes) (buf : List Byte), buf.length < p.bb →
    let A := permutation p (xorWindow p S (buf ++ p.delim :: List.replicate (p.bb - 1 - buf.length) 0))
    windowCount p buf.length = 1 ∧ absorbPad p S buf = A ∧ (finBuilder p S buf).1 = permutation p A ∧
      (finBuilder p S buf).2 = (rateBlock p A).take 32

/-- The equivalence law (R171): a session started by INIT or reset, whose frames are UPDATEs that raise no error and
frames that write no `S`, ends with the digest of the concatenated chunks. That the frames held behind a reset that
starts the session are executed is the model's choice (log 6). -/
def Obligations.StreamingEqualsOneShot : Prop :=
  ∀ (p : Params) (s : State) (x : Input) (fs : List Frame), startsSession x = true →
    (∀ f ∈ fs, (isUpdate f = true ∧ fits p f.payload.length = true) ∨ leavesSession f = true) →
    s.inbox = x :: (fs.map .frame ++ [.frame (frameOf .finalize [])]) →
      ∃ t r, (coreWith p).run (fs.length + 2) s = .next t ∧ t.responses.getLast? = some r ∧ r.rerr = 0 ∧
        r.data = digest p (sessionMessage fs) ∧ t.phase = .finalized

/-- The pseudo-instruction BHASH returns the data of DIGEST (R70), which leaves `S` and the builder as they were.
That the payload may have any length rests on PAYLOAD_MAX unbounded (log 7). -/
def Obligations.BhashEqualsDigest : Prop :=
  ∀ (s : State) (payload : List Byte) (held : List Input),
    s.inbox = (bhashFrames payload).map .frame ++ held →
      ∃ t u r r', Sys2Proof.core.run 3 s = .next t ∧ t.responses.getLast? = some r ∧
        step { s with inbox := (digestFrames payload).map .frame ++ held } = .next u ∧
        u.responses.getLast? = some r' ∧ r.rerr = 0 ∧ r'.rerr = 0 ∧ r.data = r'.data ∧ t.phase = .finalized ∧
        u.lanes = s.lanes ∧ SameBuilder s u

/-! ## Systems -/

/-- Any schedule of a system gives each instance the result of running its own steps alone: what R50 infers
from R33 and R49. That an entry of the schedule that names no instance steps nothing is the model's choice (log 5). -/
def Obligations.InstancesAreIndependent : Prop :=
  ∀ (ks : List Nat) (sys : List State),
    ∃ sys', runSchedule ks sys = .next sys' ∧ sys'.length = sys.length ∧
      ∀ (j : Nat) (s : State), sys[j]? = some s →
        ∃ t, Sys2Proof.core.run (ks.count j) s = .next t ∧ sys'[j]? = some t
end

