-- ==== Sys2Proof/Laws/State.lean ====
section
/-! SUPPORT. One lemma per field per update of the state, so that no proof unfolds a record update. -/

namespace Sys2Proof
namespace Machine

@[simp] theorem State.setLanes_lanes (s : State) (T : Lanes) : (s.setLanes T).lanes = T := rfl
@[simp] theorem State.setLanes_buf (s : State) (T : Lanes) : (s.setLanes T).buf = s.buf := rfl
@[simp] theorem State.setLanes_plen (s : State) (T : Lanes) : (s.setLanes T).plen = s.plen := rfl
@[simp] theorem State.setLanes_phase (s : State) (T : Lanes) : (s.setLanes T).phase = s.phase := rfl
@[simp] theorem State.setLanes_err (s : State) (T : Lanes) : (s.setLanes T).err = s.err := rfl
@[simp] theorem State.setLanes_busy (s : State) (T : Lanes) : (s.setLanes T).busy = s.busy := rfl
@[simp] theorem State.setLanes_payload (s : State) (T : Lanes) : (s.setLanes T).payload = s.payload := rfl
@[simp] theorem State.setLanes_inbox (s : State) (T : Lanes) : (s.setLanes T).inbox = s.inbox := rfl
@[simp] theorem State.setLanes_responses (s : State) (T : Lanes) : (s.setLanes T).responses = s.responses := rfl

@[simp] theorem State.accept_lanes (s : State) (f : Frame) (held : List Input) : (s.accept f held).lanes = s.lanes := rfl
@[simp] theorem State.accept_buf (s : State) (f : Frame) (held : List Input) : (s.accept f held).buf = s.buf := rfl
@[simp] theorem State.accept_plen (s : State) (f : Frame) (held : List Input) : (s.accept f held).plen = s.plen := rfl
@[simp] theorem State.accept_phase (s : State) (f : Frame) (held : List Input) : (s.accept f held).phase = s.phase := rfl
@[simp] theorem State.accept_err (s : State) (f : Frame) (held : List Input) : (s.accept f held).err = s.err := rfl
@[simp] theorem State.accept_busy (s : State) (f : Frame) (held : List Input) : (s.accept f held).busy = true := rfl
@[simp] theorem State.accept_payload (s : State) (f : Frame) (held : List Input) : (s.accept f held).payload = f.payload := rfl
@[simp] theorem State.accept_inbox (s : State) (f : Frame) (held : List Input) : (s.accept f held).inbox = held := rfl
@[simp] theorem State.accept_responses (s : State) (f : Frame) (held : List Input) : (s.accept f held).responses = s.responses := rfl

@[simp] theorem State.respond_lanes (s : State) (e : ErrCode) (d : List Byte) : (s.respond e d).lanes = s.lanes := rfl
@[simp] theorem State.respond_buf (s : State) (e : ErrCode) (d : List Byte) : (s.respond e d).buf = s.buf := rfl
@[simp] theorem State.respond_plen (s : State) (e : ErrCode) (d : List Byte) : (s.respond e d).plen = s.plen := rfl
@[simp] theorem State.respond_phase (s : State) (e : ErrCode) (d : List Byte) : (s.respond e d).phase = s.phase := rfl
@[simp] theorem State.respond_err (s : State) (e : ErrCode) (d : List Byte) : (s.respond e d).err = s.err := rfl
@[simp] theorem State.respond_busy (s : State) (e : ErrCode) (d : List Byte) : (s.respond e d).busy = false := rfl
@[simp] theorem State.respond_payload (s : State) (e : ErrCode) (d : List Byte) : (s.respond e d).payload = [] := rfl
@[simp] theorem State.respond_inbox (s : State) (e : ErrCode) (d : List Byte) : (s.respond e d).inbox = s.inbox := rfl
@[simp] theorem State.respond_responses (s : State) (e : ErrCode) (d : List Byte) : (s.respond e d).responses = s.responses ++ [{ rerr := e.code, status := (s.respond e d).status, data := d }] := rfl

@[simp] theorem State.complete_lanes (s : State) (d : List Byte) : (s.complete d).lanes = s.lanes := rfl
@[simp] theorem State.complete_buf (s : State) (d : List Byte) : (s.complete d).buf = s.buf := rfl
@[simp] theorem State.complete_plen (s : State) (d : List Byte) : (s.complete d).plen = s.plen := rfl
@[simp] theorem State.complete_phase (s : State) (d : List Byte) : (s.complete d).phase = s.phase := rfl
@[simp] theorem State.complete_err (s : State) (d : List Byte) : (s.complete d).err = s.err := rfl
@[simp] theorem State.complete_busy (s : State) (d : List Byte) : (s.complete d).busy = false := rfl
@[simp] theorem State.complete_payload (s : State) (d : List Byte) : (s.complete d).payload = [] := rfl
@[simp] theorem State.complete_inbox (s : State) (d : List Byte) : (s.complete d).inbox = s.inbox := rfl
@[simp] theorem State.complete_responses (s : State) (d : List Byte) : (s.complete d).responses = s.responses ++ [{ rerr := 0, status := (s.complete d).status, data := d }] := rfl

@[simp] theorem State.raise_lanes (s : State) (e : ErrCode) : (s.raise e).lanes = s.lanes := rfl
@[simp] theorem State.raise_buf (s : State) (e : ErrCode) : (s.raise e).buf = s.buf := rfl
@[simp] theorem State.raise_plen (s : State) (e : ErrCode) : (s.raise e).plen = s.plen := rfl
@[simp] theorem State.raise_phase (s : State) (e : ErrCode) : (s.raise e).phase = s.phase := rfl
@[simp] theorem State.raise_err (s : State) (e : ErrCode) : (s.raise e).err = latch s.err e := rfl
@[simp] theorem State.raise_busy (s : State) (e : ErrCode) : (s.raise e).busy = false := rfl
@[simp] theorem State.raise_payload (s : State) (e : ErrCode) : (s.raise e).payload = [] := rfl
@[simp] theorem State.raise_inbox (s : State) (e : ErrCode) : (s.raise e).inbox = s.inbox := rfl
@[simp] theorem State.raise_responses (s : State) (e : ErrCode) : (s.raise e).responses = s.responses ++ [{ rerr := e.code, status := (s.raise e).status, data := [] }] := rfl

@[simp] theorem State.clearLatch_lanes (s : State) : (s.clearLatch).lanes = s.lanes := rfl
@[simp] theorem State.clearLatch_buf (s : State) : (s.clearLatch).buf = s.buf := rfl
@[simp] theorem State.clearLatch_plen (s : State) : (s.clearLatch).plen = s.plen := rfl
@[simp] theorem State.clearLatch_phase (s : State) : (s.clearLatch).phase = s.phase := rfl
@[simp] theorem State.clearLatch_err (s : State) : (s.clearLatch).err = .noError := rfl
@[simp] theorem State.clearLatch_busy (s : State) : (s.clearLatch).busy = s.busy := rfl
@[simp] theorem State.clearLatch_payload (s : State) : (s.clearLatch).payload = s.payload := rfl
@[simp] theorem State.clearLatch_inbox (s : State) : (s.clearLatch).inbox = s.inbox := rfl
@[simp] theorem State.clearLatch_responses (s : State) : (s.clearLatch).responses = s.responses := rfl

@[simp] theorem State.newSession_lanes (s : State) : (s.newSession).lanes = zeroLanes := rfl
@[simp] theorem State.newSession_buf (s : State) : (s.newSession).buf = [] := rfl
@[simp] theorem State.newSession_plen (s : State) : (s.newSession).plen = 0 := rfl
@[simp] theorem State.newSession_phase (s : State) : (s.newSession).phase = .accepting := rfl
@[simp] theorem State.newSession_err (s : State) : (s.newSession).err = s.err := rfl
@[simp] theorem State.newSession_busy (s : State) : (s.newSession).busy = s.busy := rfl
@[simp] theorem State.newSession_payload (s : State) : (s.newSession).payload = s.payload := rfl
@[simp] theorem State.newSession_inbox (s : State) : (s.newSession).inbox = s.inbox := rfl
@[simp] theorem State.newSession_responses (s : State) : (s.newSession).responses = s.responses := rfl

@[simp] theorem State.updated_lanes (s : State) (r : Lanes × List Byte) : (s.updated r).lanes = r.1 := rfl
@[simp] theorem State.updated_buf (s : State) (r : Lanes × List Byte) : (s.updated r).buf = r.2 := rfl
@[simp] theorem State.updated_plen (s : State) (r : Lanes × List Byte) : (s.updated r).plen = r.2.length := rfl
@[simp] theorem State.updated_phase (s : State) (r : Lanes × List Byte) : (s.updated r).phase = s.phase := rfl
@[simp] theorem State.updated_err (s : State) (r : Lanes × List Byte) : (s.updated r).err = s.err := rfl
@[simp] theorem State.updated_busy (s : State) (r : Lanes × List Byte) : (s.updated r).busy = s.busy := rfl
@[simp] theorem State.updated_payload (s : State) (r : Lanes × List Byte) : (s.updated r).payload = s.payload := rfl
@[simp] theorem State.updated_inbox (s : State) (r : Lanes × List Byte) : (s.updated r).inbox = s.inbox := rfl
@[simp] theorem State.updated_responses (s : State) (r : Lanes × List Byte) : (s.updated r).responses = s.responses := rfl

@[simp] theorem State.closed_lanes (s : State) (S : Lanes) : (s.closed S).lanes = S := rfl
@[simp] theorem State.closed_buf (s : State) (S : Lanes) : (s.closed S).buf = [] := rfl
@[simp] theorem State.closed_plen (s : State) (S : Lanes) : (s.closed S).plen = 0 := rfl
@[simp] theorem State.closed_phase (s : State) (S : Lanes) : (s.closed S).phase = .finalized := rfl
@[simp] theorem State.closed_err (s : State) (S : Lanes) : (s.closed S).err = s.err := rfl
@[simp] theorem State.closed_busy (s : State) (S : Lanes) : (s.closed S).busy = s.busy := rfl
@[simp] theorem State.closed_payload (s : State) (S : Lanes) : (s.closed S).payload = s.payload := rfl
@[simp] theorem State.closed_inbox (s : State) (S : Lanes) : (s.closed S).inbox = s.inbox := rfl
@[simp] theorem State.closed_responses (s : State) (S : Lanes) : (s.closed S).responses = s.responses := rfl

@[simp] theorem State.assertReset_lanes (s : State) (held : List Input) : (s.assertReset held).lanes = State.reset.lanes := rfl
@[simp] theorem State.assertReset_buf (s : State) (held : List Input) : (s.assertReset held).buf = State.reset.buf := rfl
@[simp] theorem State.assertReset_plen (s : State) (held : List Input) : (s.assertReset held).plen = State.reset.plen := rfl
@[simp] theorem State.assertReset_phase (s : State) (held : List Input) : (s.assertReset held).phase = State.reset.phase := rfl
@[simp] theorem State.assertReset_err (s : State) (held : List Input) : (s.assertReset held).err = State.reset.err := rfl
@[simp] theorem State.assertReset_busy (s : State) (held : List Input) : (s.assertReset held).busy = State.reset.busy := rfl
@[simp] theorem State.assertReset_payload (s : State) (held : List Input) : (s.assertReset held).payload = State.reset.payload := rfl
@[simp] theorem State.assertReset_inbox (s : State) (held : List Input) : (s.assertReset held).inbox = held := rfl
@[simp] theorem State.assertReset_responses (s : State) (held : List Input) : (s.assertReset held).responses = s.responses := rfl

@[simp] theorem State.present_lanes (s : State) (x : Input) : (s.present x).lanes = s.lanes := rfl
@[simp] theorem State.present_buf (s : State) (x : Input) : (s.present x).buf = s.buf := rfl
@[simp] theorem State.present_plen (s : State) (x : Input) : (s.present x).plen = s.plen := rfl
@[simp] theorem State.present_phase (s : State) (x : Input) : (s.present x).phase = s.phase := rfl
@[simp] theorem State.present_err (s : State) (x : Input) : (s.present x).err = s.err := rfl
@[simp] theorem State.present_busy (s : State) (x : Input) : (s.present x).busy = s.busy := rfl
@[simp] theorem State.present_payload (s : State) (x : Input) : (s.present x).payload = s.payload := rfl
@[simp] theorem State.present_inbox (s : State) (x : Input) : (s.present x).inbox = s.inbox ++ [x] := rfl
@[simp] theorem State.present_responses (s : State) (x : Input) : (s.present x).responses = s.responses := rfl

@[simp] theorem State.withFetchWord_lanes (s : State) (nbits w : Nat) : (s.withFetchWord nbits w).lanes = s.lanes := rfl
@[simp] theorem State.withFetchWord_buf (s : State) (nbits w : Nat) : (s.withFetchWord nbits w).buf = s.buf := rfl
@[simp] theorem State.withFetchWord_plen (s : State) (nbits w : Nat) : (s.withFetchWord nbits w).plen = s.plen := rfl
@[simp] theorem State.withFetchWord_phase (s : State) (nbits w : Nat) : (s.withFetchWord nbits w).phase = s.phase := rfl
@[simp] theorem State.withFetchWord_err (s : State) (nbits w : Nat) : (s.withFetchWord nbits w).err = s.err := rfl
@[simp] theorem State.withFetchWord_busy (s : State) (nbits w : Nat) : (s.withFetchWord nbits w).busy = s.busy := rfl
@[simp] theorem State.withFetchWord_payload (s : State) (nbits w : Nat) : (s.withFetchWord nbits w).payload = s.payload := rfl
@[simp] theorem State.withFetchWord_inbox (s : State) (nbits w : Nat) : (s.withFetchWord nbits w).inbox = .frame (fetchFrame nbits w) :: s.inbox := rfl
@[simp] theorem State.withFetchWord_responses (s : State) (nbits w : Nat) : (s.withFetchWord nbits w).responses = s.responses := rfl

/-- Two states with the same fields are the same state. -/
theorem State.eq_of_fields {s t : State} (hlanes : s.lanes = t.lanes) (hbuf : s.buf = t.buf)
    (hplen : s.plen = t.plen) (hphase : s.phase = t.phase) (herr : s.err = t.err) (hbusy : s.busy = t.busy)
    (hpayload : s.payload = t.payload) (hinbox : s.inbox = t.inbox) (hresp : s.responses = t.responses) : s = t := by
  cases s
  cases t
  simp_all

end Machine
end Sys2Proof
end

