-- ==== Sys2Proof/Laws/Ops.lean ====
section
/-! SUPPORT. What each shared operation can do, once: the sizes of a parameter set, the payload check, the response,
raising an error, and the latch. -/

namespace Sys2Proof
namespace Machine

theorem bb_cases (p : Params) : (p.rate = .r256 ∧ p.bb = 32 ∧ p.rl = 8) ∨ (p.rate = .r512 ∧ p.bb = 64 ∧ p.rl = 16) := by
  unfold Params.bb Params.rl
  cases p.rate <;> simp [Rate.bits]

theorem bb_of_r256 {p : Params} (h : p.rate = .r256) : p.bb = 32 := by simp [Params.bb, h, Rate.bits]

theorem bb_of_r512 {p : Params} (h : p.rate = .r512) : p.bb = 64 := by simp [Params.bb, h, Rate.bits]

theorem rl_of_r256 {p : Params} (h : p.rate = .r256) : p.rl = 8 := by simp [Params.rl, h, Rate.bits]

theorem rl_of_r512 {p : Params} (h : p.rate = .r512) : p.rl = 16 := by simp [Params.rl, h, Rate.bits]

theorem bb_pos (p : Params) : 0 < p.bb := by
  rcases bb_cases p with ⟨-, h, -⟩ | ⟨-, h, -⟩ <;> omega

theorem bits_eq (p : Params) : p.rate.bits = 8 * p.bb := by
  unfold Params.bb
  cases p.rate <;> rfl

@[simp] theorem hardware_bb : hardware.bb = 32 := rfl

@[simp] theorem hardware_rl : hardware.rl = 8 := rfl

@[simp] theorem hardware_delim : hardware.delim = 0x06 := rfl

@[simp] theorem hardware_nr : hardware.nr = 43 := rfl

/-- PAYLOAD_MAX of this hardware is unbounded (R13). -/
@[simp] theorem fits_hardware (len : Nat) : fits hardware len = true := rfl

/-- A payload fits unless PAYLOAD_MAX is bounded and it is longer. -/
theorem fits_eq_false {p : Params} {len : Nat} :
    fits p len = false ↔ ∃ m, p.payloadMax = some m ∧ m < len := by
  unfold fits
  split <;> simp [*]

/-- An empty payload is within every PAYLOAD_MAX. -/
@[simp] theorem fits_zero (p : Params) : fits p 0 = true := by
  unfold fits
  split <;> simp

theorem withPayload_admitted {s : State} {p : Params} {c : PayloadClass} {body : State}
    (h : c.admits p s.payload.length = true) : s.withPayload p c body = body := if_pos h

theorem withPayload_refused {s : State} {p : Params} {c : PayloadClass} {body : State}
    (h : c.admits p s.payload.length = false) : s.withPayload p c body = s.raise .payload :=
  if_neg (by simp [h])

@[simp] theorem latch_noError (e : ErrCode) : latch .noError e = e := rfl

theorem latch_held {held raised : ErrCode} (h : held ≠ .noError) : latch held raised = held := if_neg h

theorem code_eq_zero {e : ErrCode} : e.code = 0 ↔ e = .noError := by
  cases e <;> decide

theorem code_inj {e e' : ErrCode} : e.code = e'.code ↔ e = e' := by
  cases e <;> cases e' <;> decide

theorem code_le_seven (e : ErrCode) : e.code.toNat ≤ 7 := by
  cases e <;> decide

/-- Whatever the command wrote, ending it answers the frame and leaves the rest as it stands. -/
theorem respond_answered (s : State) (e : ErrCode) (d : List Byte) : Answered s (s.respond e d) e d :=
  ⟨rfl, rfl, rfl, rfl⟩

theorem complete_answered (s : State) (d : List Byte) : Answered s (s.complete d) .noError d :=
  respond_answered s .noError d

/-- Raising an error does all that R203 says, and nothing else. -/
theorem raise_raised (s : State) (e : ErrCode) : Raised s (s.raise e) e where
  answered := ⟨rfl, rfl, rfl, rfl⟩
  lanes := rfl
  builder := ⟨rfl, rfl, rfl⟩
  err := rfl

/-- An answer is the same seen from a state that differs in what the command wrote only. -/
theorem Answered.of_same {s s' t : State} {e : ErrCode} {d : List Byte} (h : Answered s' t e d)
    (hr : s'.responses = s.responses) (hi : s'.inbox = s.inbox) : Answered s t e d where
  response := by rw [h.response, hr]
  idle := h.idle
  noPayload := h.noPayload
  held := by rw [h.held, hi]

end Machine
end Sys2Proof
end

