-- ==== Sys2Proof/Laws/Bytes.lean ====
section
/-! SUPPORT. Bytes and lanes: the byte orders byte by byte, indexing a sequence made of equal pieces, and the sponge's
loops in closed form. -/

namespace Sys2Proof
namespace Machine

theorem le4_length (x : Word) : (le4 x).length = 4 := rfl

theorem le4_getElem? (x : Word) {k : Nat} (hk : k < 4) : (le4 x)[k]? = some (x.extractLsb' (8 * k) 8) := by
  have hcases : k = 0 ∨ k = 1 ∨ k = 2 ∨ k = 3 := by omega
  rcases hcases with rfl | rfl | rfl | rfl <;> rfl

/-- Byte `k` of a little-endian lane. -/
theorem le32_byte (b0 b1 b2 b3 : Byte) {k : Nat} (hk : k < 4) :
    (le32 b0 b1 b2 b3).extractLsb' (8 * k) 8 = [b0, b1, b2, b3].getD k 0 := by
  have hcases : k = 0 ∨ k = 1 ∨ k = 2 ∨ k = 3 := by omega
  rcases hcases with rfl | rfl | rfl | rfl <;> (ext j hj; unfold le32; simp)
  all_goals
    have hj' : j = 0 ∨ j = 1 ∨ j = 2 ∨ j = 3 ∨ j = 4 ∨ j = 5 ∨ j = 6 ∨ j = 7 := by omega
    rcases hj' with rfl | rfl | rfl | rfl | rfl | rfl | rfl | rfl <;> simp

/-- Byte `k` of a big-endian lane. -/
theorem be32_byte (b0 b1 b2 b3 : Byte) {k : Nat} (hk : k < 4) :
    (be32 b0 b1 b2 b3).extractLsb' (24 - 8 * k) 8 = [b0, b1, b2, b3].getD k 0 := by
  have hcases : k = 0 ∨ k = 1 ∨ k = 2 ∨ k = 3 := by omega
  rcases hcases with rfl | rfl | rfl | rfl <;> (ext j hj; unfold be32; simp)
  all_goals
    have hj' : j = 0 ∨ j = 1 ∨ j = 2 ∨ j = 3 ∨ j = 4 ∨ j = 5 ∨ j = 6 ∨ j = 7 := by omega
    rcases hj' with rfl | rfl | rfl | rfl | rfl | rfl | rfl | rfl <;> simp

theorem be32_zero : be32 0 0 0 0 = 0 := by decide

theorem flatMap_length_of_const {α : Type} (l : List α) (g : α → List Byte) (c : Nat)
    (hg : ∀ a, (g a).length = c) : (l.flatMap g).length = l.length * c := by
  induction l with
  | nil => simp
  | cons a l ih =>
    rw [List.flatMap_cons, List.length_append, hg, ih, List.length_cons, Nat.succ_mul, Nat.add_comm]

theorem flatMap_getElem?_of_const {α : Type} (l : List α) (g : α → List Byte) (c : Nat)
    (hg : ∀ a, (g a).length = c) (j : Nat) {k : Nat} (hk : k < c) :
    (l.flatMap g)[j * c + k]? = (l[j]?).bind fun a => (g a)[k]? := by
  induction l generalizing j with
  | nil => simp
  | cons a l ih =>
    rw [List.flatMap_cons]
    rcases j with _ | j
    · rw [List.getElem?_append_left (by rw [hg]; omega)]
      simp
    · rw [List.getElem?_append_right (by rw [hg, Nat.succ_mul]; omega), hg,
        show (j + 1) * c + k - c = j * c + k by rw [Nat.succ_mul]; omega, ih]
      simp

theorem laneNumbers_getElem? (j : Fin 16) : laneNumbers[j.val]? = some j := by
  revert j
  decide

/-- The loop of SQUEEZE in closed form. -/
theorem squeeze_eq (p : Params) (S : Lanes) (n : Nat) :
    squeeze p S n = ((permutation p)^[n / p.bb] S,
      (List.range (n / p.bb)).flatMap fun i => rateBlock p ((permutation p)^[i] S)) := by
  unfold squeeze
  induction n / p.bb with
  | zero => rfl
  | succ m ih =>
    rw [List.range_succ, List.foldl_append, ih]
    simp [Function.iterate_succ_apply', List.flatMap_append]

theorem paddedWindow_length (p : Params) (M : List Byte) (w : Nat) : (paddedWindow p M w).length = p.bb := by
  simp [paddedWindow]

theorem paddedWindow_getElem? (p : Params) (M : List Byte) (w : Nat) {q : Nat} (hq : q < p.bb) :
    (paddedWindow p M w)[q]? = some (padByte p M (w * p.bb + q)) := by
  simp [paddedWindow, hq]

@[simp] theorem absorbBlk_nil (p : Params) (S : Lanes) : absorbBlk p S [] = S := by
  simp [absorbBlk]

theorem updBuilder_buf_length (p : Params) (S : Lanes) (buf c : List Byte) :
    (updBuilder p S buf c).2.length = (buf ++ c).length % p.bb := by
  have hdiv := Nat.div_add_mod (buf ++ c).length p.bb
  rw [Nat.mul_comm] at hdiv
  show ((buf ++ c).drop _).length = _
  rw [List.length_drop]
  omega

end Machine
end Sys2Proof
end

