-- ==== Sys2Proof/Laws/Dispatch.lean ====
section
/-! SUPPORT. What a step can do, once: `exec` is the parametric command at this hardware's parameters, every command
is one of four shapes, and a step takes one input. -/

namespace Sys2Proof
namespace Machine

theorem exec_eq_runWith (i : Instr) (s : State) : exec i s = .next (runWith hardware i s) := by
  cases i <;> rfl

theorem step_eq_stepWith (s : State) : step s = stepWith hardware s := by
  have h : exec = fun i s => .next (runWith hardware i s) := funext fun i => funext fun s => exec_eq_runWith i s
  unfold step stepWith
  rw [h]

/-- A command raises the error of the table of R201 and R202, if there is one. -/
theorem runWith_raises {p : Params} {i : Instr} {s : State} (h : errorOf p i s ≠ .noError) :
    runWith p i s = s.raise (errorOf p i s) := by
  unfold errorOf at h ⊢
  by_cases ha : (payloadClass i).admits p s.payload.length = true
  · rw [if_pos ha] at h ⊢
    cases i <;> simp only [payloadClass] at ha <;> simp only [extraCheck] at h ⊢ <;> simp at h
    · simp [runWith, runAbsorbBlk, withPayload_admitted ha, h]
    · simp [runWith, runSqueeze, withPayload_admitted ha, h]
    · simp [runWith, runHash, withPayload_admitted ha, h]
    · simp [runWith, runUpdate, withPayload_admitted ha, h]
    · simp [runWith, runFinalize, withPayload_admitted ha, h]
  · rw [if_neg ha] at h ⊢
    cases i <;> simp only [payloadClass, Bool.not_eq_true] at ha <;> exact withPayload_refused ha

/-- The state a command without an error ends with: what it writes, and then its answer. -/
def written (p : Params) (i : Instr) (s : State) : State :=
  match i with
  | .permute => s.setLanes (permutation p s.lanes)
  | .absorbPad => s.setLanes (absorbPad p s.lanes s.payload)
  | .absorbBlk => s.setLanes (absorbBlk p s.lanes s.payload)
  | .squeeze n => s.setLanes (squeeze p s.lanes n).1
  | .hash _ => s
  | .init => s.newSession
  | .update => s.updated (updBuilder p s.lanes s.buf s.payload)
  | .finalize => s.closed (finBuilder p s.lanes s.buf).1
  | .loadState => s.setLanes (lanesOfImage s.payload)
  | .readState => s
  | .clearErr => s.clearLatch

/-- The data a command without an error answers. -/
def answer (p : Params) (i : Instr) (s : State) : List Byte :=
  match i with
  | .permute => []
  | .absorbPad => []
  | .absorbBlk => []
  | .squeeze n => (squeeze p s.lanes n).2
  | .hash _ => digest p s.payload
  | .init => []
  | .update => []
  | .finalize => (finBuilder p s.lanes s.buf).2
  | .loadState => []
  | .readState => imageOfLanes s.lanes
  | .clearErr => []

/-- A command without an error writes, and completes with its data. -/
theorem runWith_completes {p : Params} {i : Instr} {s : State} (h : errorOf p i s = .noError) :
    runWith p i s = (written p i s).complete (answer p i s) := by
  unfold errorOf at h
  by_cases ha : (payloadClass i).admits p s.payload.length = true
  · rw [if_pos ha] at h
    cases i <;> simp only [payloadClass] at ha <;> simp only [extraCheck] at h <;> try simp at h
    · exact withPayload_admitted ha
    · exact withPayload_admitted ha
    · simp [runWith, runAbsorbBlk, withPayload_admitted ha, h, written, answer]
    · simp [runWith, runSqueeze, withPayload_admitted ha, h, written, answer]
    · simp [runWith, runHash, withPayload_admitted ha, h, written, answer]
    · exact withPayload_admitted ha
    · simp [runWith, runUpdate, withPayload_admitted ha, h, written, answer]
    · simp [runWith, runFinalize, withPayload_admitted ha, h, written, answer]
    · exact withPayload_admitted ha
    · exact withPayload_admitted ha
    · exact withPayload_admitted ha
  · rw [if_neg ha] at h
    cases h

/-- Everything a step with a parameter set can do: idle, run a frame's command, answer an illegal word, or reset. -/
theorem stepWith_cases (p : Params) (s : State) :
    (s.inbox = [] ∧ stepWith p s = .next s) ∨
    (∃ f held i, s.inbox = .frame f :: held ∧ decode f.cw = .ok i ∧
      stepWith p s = .next (runWith p i (s.accept f held))) ∨
    (∃ f held e, s.inbox = .frame f :: held ∧ decode f.cw = .error e ∧
      stepWith p s = .next ((s.accept f held).raise .illegal)) ∨
    ∃ x held, (x = .reset ∨ ∃ f, x = .frameCutByReset f) ∧ s.inbox = x :: held ∧
      stepWith p s = .next (s.assertReset held) := by
  rcases hin : s.inbox with _ | ⟨x, held⟩
  · exact .inl ⟨rfl, by simp [stepWith, takeInput, hin]⟩
  · rcases x with f | _ | f
    · rcases hd : decode f.cw with e | i
      · exact .inr (.inr (.inl ⟨f, held, e, rfl, hd, by simp [stepWith, takeInput, executeFrame, hin, hd]⟩))
      · exact .inr (.inl ⟨f, held, i, rfl, hd, by simp [stepWith, takeInput, executeFrame, hin, hd]⟩)
    · exact .inr (.inr (.inr ⟨.reset, held, .inl rfl, rfl, by simp [stepWith, takeInput, hin]⟩))
    · exact .inr (.inr (.inr ⟨.frameCutByReset f, held, .inr ⟨f, rfl⟩, rfl, by simp [stepWith, takeInput, hin]⟩))

end Machine
end Sys2Proof
end

