-- ==== Sys2Proof/Laws/Lanes.lean ====
section
/-! SUPPORT. Whole lane values: lane `i` of what is built lane by lane, and equality lane by lane. -/

namespace Sys2Proof
namespace Machine

@[simp] theorem get_ofLanes (f : Fin 16 → Word) (i : Fin 16) : (ofLanes f).get i = f i := by
  fin_cases i <;> rfl

theorem lanes_ext {S T : Lanes} (h : ∀ i, S.get i = T.get i) : S = T := by
  apply Vector.ext
  intro i hi
  exact h ⟨i, hi⟩

@[simp] theorem ofLanes_get (S : Lanes) : ofLanes S.get = S := lanes_ext fun i => get_ofLanes _ i

@[simp] theorem get_zeroLanes (i : Fin 16) : zeroLanes.get i = 0 := get_ofLanes _ i

theorem reset_lanes : State.reset.lanes = zeroLanes := rfl

theorem laneNumbers_eq_finRange : laneNumbers = List.finRange 16 := by decide

@[simp] theorem get_diff (p : Params) (S : Lanes) (j : Fin 16) : (diff p S).get j = diffLane p S j :=
  get_ofLanes _ j

@[simp] theorem get_circ (p : Params) (S : Lanes) (i : Fin 16) :
    (circ p S).get i = circLane (S.get i) (p.rot i).1.val (p.rot i).2.val := get_ofLanes _ i

@[simp] theorem get_inject (p : Params) (S : Lanes) (r : Nat) (i : Fin 16) :
    (inject p S r).get i = S.get i ^^^ p.rc r i := get_ofLanes _ i

theorem get_arx (S : Lanes) (j : Fin 16) :
    (arx S).get j =
      if j.val % 2 = 0 then (arxPair (S.get (evenLane j)) (S.get (oddLane j))).1
      else (arxPair (S.get (evenLane j)) (S.get (oddLane j))).2 := get_ofLanes _ j

theorem get_xorWindow (p : Params) (S : Lanes) (W : List Byte) (j : Fin 16) :
    (xorWindow p S W).get j =
      if j.val < p.rl then
        S.get j ^^^ be32 (byteAt W (4 * j.val)) (byteAt W (4 * j.val + 1)) (byteAt W (4 * j.val + 2))
          (byteAt W (4 * j.val + 3))
      else S.get j := get_ofLanes _ j

theorem get_lanesOfImage (b : List Byte) (i : Fin 16) :
    (lanesOfImage b).get i =
      le32 (byteAt b (4 * i.val)) (byteAt b (4 * i.val + 1)) (byteAt b (4 * i.val + 2)) (byteAt b (4 * i.val + 3)) :=
  get_ofLanes _ i

end Machine
end Sys2Proof
end

