-- ==== Sys2Proof/Laws/PerInstr.lean ====
section
/-! SUPPORT. Facts about each command as syntax, one lemma per constructor. -/

namespace Sys2Proof
namespace Laws

/-- The opcode map is the same both ways, and an opcode and its operand give the command back (R64). -/
def OpcodeMap.Statement (i : Instr) : Prop :=
  Opcode.ofBits i.opcode.bits = some i.opcode ∧ i.opcode.instr i.operand = i

theorem OpcodeMap.permute : OpcodeMap.Statement .permute := ⟨rfl, rfl⟩
theorem OpcodeMap.absorbPad : OpcodeMap.Statement .absorbPad := ⟨rfl, rfl⟩
theorem OpcodeMap.absorbBlk : OpcodeMap.Statement .absorbBlk := ⟨rfl, rfl⟩
theorem OpcodeMap.squeeze (n : Nat) : OpcodeMap.Statement (.squeeze n) := ⟨rfl, rfl⟩
theorem OpcodeMap.hash (outlen : Nat) : OpcodeMap.Statement (.hash outlen) := ⟨rfl, rfl⟩
theorem OpcodeMap.init : OpcodeMap.Statement .init := ⟨rfl, rfl⟩
theorem OpcodeMap.update : OpcodeMap.Statement .update := ⟨rfl, rfl⟩
theorem OpcodeMap.finalize : OpcodeMap.Statement .finalize := ⟨rfl, rfl⟩
theorem OpcodeMap.loadState : OpcodeMap.Statement .loadState := ⟨rfl, rfl⟩
theorem OpcodeMap.readState : OpcodeMap.Statement .readState := ⟨rfl, rfl⟩
theorem OpcodeMap.clearErr : OpcodeMap.Statement .clearErr := ⟨rfl, rfl⟩

end Laws
end Sys2Proof
end

