-- ==== Sys2Proof/Laws/Words.lean ====
section
/-! SUPPORT. The fields of a command word, and which word a command is. -/

namespace Sys2Proof

theorem opcField_encode (i : Instr) : opcField (encode i) = i.opcode.bits := by
  unfold opcField encode
  apply BitVec.eq_of_getLsbD_eq
  intro j hj
  have himm : (BitVec.ofNat 16 i.operand).getLsbD (24 + j) = false := BitVec.getLsbD_of_ge _ _ (by omega)
  simp [hj, show 24 + j < 32 by omega, himm]

theorem rsvField_encode (i : Instr) : rsvField (encode i) = 0 := by
  unfold rsvField encode
  apply BitVec.eq_of_getLsbD_eq
  intro j hj
  simp [show 16 + j < 24 by omega]

theorem immField_encode (i : Instr) : immField (encode i) = BitVec.ofNat 16 i.operand := by
  unfold immField encode
  apply BitVec.eq_of_getLsbD_eq
  intro j hj
  simp [hj, show j < 24 by omega]
  omega

theorem ofBits_bits (op : Opcode) : Opcode.ofBits op.bits = some op := by
  cases op <;> rfl

theorem bits_ofBits {b : BitVec 8} {op : Opcode} (h : Opcode.ofBits b = some op) : op.bits = b := by
  revert b op
  decide

theorem ofBits_eq_none (b : BitVec 8) : Opcode.ofBits b = none ↔ b.toNat < 0x01 ∨ 0x0B < b.toNat := by
  revert b
  decide

end Sys2Proof
end

