-- ==== Sys2Proof/Tests/Slice0.lean ====
section
/-! SUPPORT. Small tests. Every expected value is one of 95_test_vectors.md or of a worked example of the rule named;
TOY is the parameter set of section 2 of that file. The theorems named `witness_` show that the hypotheses of a
statement can be met, at the boundary of each of its clauses. -/

namespace Sys2Proof
namespace Tests
open Sys2Proof.Machine

/-! ## Words (R61 to R67, R71) -/

theorem test_wf_refuses_squeeze_operand : (Instr.squeeze 65536).wf = false := by decide

theorem test_wf_refuses_hash_operand : (Instr.hash 65536).wf = false := by decide

theorem test_wf_admits_largest_operand : (Instr.squeeze 65535).wf = true ∧ (Instr.hash 65535).wf = true := by decide

theorem test_decode_permute : decode 0b00000001000000000000000000000000 = .ok .permute := by decide

theorem test_decode_absorb_pad : decode 0b00000010000000000000000000000000 = .ok .absorbPad := by decide

theorem test_decode_absorb_blk : decode 0b00000011000000000000000000000000 = .ok .absorbBlk := by decide

theorem test_decode_squeeze : decode 0b00000100000000001111111111100000 = .ok (.squeeze 65504) := by decide

theorem test_decode_hash : decode 0b00000101000000000000000000100000 = .ok (.hash 32) := by decide

theorem test_decode_init : decode 0b00000110000000000000000000000000 = .ok .init := by decide

theorem test_decode_update : decode 0b00000111000000000000000000000000 = .ok .update := by decide

theorem test_decode_finalize : decode 0b00001000000000000000000000000000 = .ok .finalize := by decide

theorem test_decode_load_state : decode 0b00001001000000000000000000000000 = .ok .loadState := by decide

theorem test_decode_read_state : decode 0b00001010000000000000000000000000 = .ok .readState := by decide

theorem test_decode_clear_err : decode 0b00001011000000000000000000000000 = .ok .clearErr := by decide

/-- E-1, E-2, E-3, E-4, E-13 and E-14 of section 3.8. -/
theorem test_decode_illegal_words :
    decode 0x0C000000 = .error .opcode ∧ decode 0x00000000 = .error .opcode ∧ decode 0x01000001 = .error .operand ∧
      decode 0x01010000 = .error .reserved ∧ decode 0x0C010005 = .error .opcode ∧
      decode 0x04010010 = .error .reserved := by decide

theorem test_table_word : decodeTableWord 32 0x05000020 = some (.hash 32) := by decide

/-- The next step runs the presented word, with the payload its class needs. -/
theorem test_fetch_word_runs (t : State) (h : step (State.reset.withFetchWord 32 0x09000000) = .next t) :
    t.lanes = zeroLanes ∧ t.responses = [{ rerr := 0, status := 0, data := [] }] := by
  injection h with h
  subst h
  decide

/-- R71 and R70: the assembler's words. -/
theorem test_assemble :
    assemble "ABSORB_PAD str:\"abc\" ; a comment\nSQUEEZE 0x40\nHASH 32, hex:\n\nZERO_STATE" =
      some [{ cw := 0x02000000, payload := [0x61, 0x62, 0x63] }, { cw := 0x04000040, payload := [] },
        { cw := 0x05000020, payload := [] }, { cw := 0x09000000, payload := List.replicate 64 0 }] := by decide

/-! ## The permutation under TOY (sections 2, 3.1 and 3.2) -/

/-- The rows of TOY's matrix. -/
def toyRows : List Nat :=
  [0x2a3f, 0x0777, 0x996b, 0x3f15, 0xb4cb, 0x59a7, 0xd396, 0x7770, 0x0eee, 0x69cb, 0xe59a, 0xd32d, 0xa8fc, 0xd699,
    0xeee0, 0xfc54]

/-- TOY. -/
def toy : Params where
  nr := 3
  mtx j k := (toyRows.getD j.val 0).testBit k.val
  rot i := (⟨(i.val + 1) % 32, by omega⟩, ⟨(2 * i.val + 5) % 32, by omega⟩)
  rc r i := BitVec.ofNat 32 (0x9E3779B9 * (16 * r + i.val + 1))

theorem test_rotl : rotl 0x80000001 1 = 0x00000003 ∧ rotl 0x12345678 24 = 0x78123456 ∧
    rotl 0xdeadbeef 31 = 0xef56df77 ∧ rotl 0x12345678 32 = 0x12345678 ∧ rotl 0x12345678 40 = 0x34567812 := by decide

theorem test_arx_pair : arxPair 0x00000000 0x00000001 = (0x00000100, 0x01000100) ∧
    arxPair 0x12345678 0x9abcdef0 = (0xf13568ac, 0xe1d0258a) ∧
    arxPair 0x80000000 0x80000000 = (0x00000000, 0x00800000) := by decide

/-- D-2: the lanes whose row has bit 5 set. -/
theorem test_diff_lane5 :
    diff toy (ofLanes fun i => if i = 5 then 0x80000000 else 0) =
      #v[0x80000000, 0x80000000, 0x80000000, 0, 0, 0x80000000, 0, 0x80000000, 0x80000000, 0, 0, 0x80000000, 0x80000000,
        0, 0x80000000, 0] := by decide

/-- C-3. -/
theorem test_circ_lane5 :
    (circ toy (ofLanes fun i => if i = 5 then 0x80000000 else 0)).get 5 = 0x80004020 := by decide

/-- P-4, `P(Z)`. -/
def permutedZero : Lanes :=
  #v[0xd1690cdd, 0xbd93de9d, 0xbd47dc72, 0x69f5fb87, 0x5b1b2185, 0x6856e17e, 0xe7e3f15e, 0x9f93d211, 0xab40d849,
    0x17595fb3, 0x1e112d4d, 0xd09e32fa, 0xd5d0a049, 0xd4cbde60, 0xdd770cb9, 0xccebd985]

/-! ## One step of each command under TOY (sections 3.3 to 3.8) -/

/-- The reset state with a payload. -/
def withIn (payload : List Byte) : State := { State.reset with payload := payload }

/-- RERR, STATUS and DATA of the last response. -/
def lastAnswer (s : State) : Option (BitVec 4 × Word × List Byte) :=
  s.responses.getLast?.map fun r => (r.rerr, r.status, r.data)

theorem test_permute_zero : (runWith toy .permute (withIn [])).lanes = permutedZero := by decide

/-- E-5. -/
theorem test_permute_payload : lastAnswer (runWith toy .permute (withIn [0])) = some (2, 0x00000002, []) := by decide

/-- S-1. -/
theorem test_absorb_pad_empty : (runWith toy .absorbPad (withIn [])).lanes =
    #v[0xb29771fe, 0x385039d8, 0x55fd3350, 0x0755ba61, 0x8c44655c, 0x443fdcdf, 0x1adfc44c, 0x7999300d, 0x8bbd7193,
      0x530640d9, 0xa2ff118b, 0xb5ce1a35, 0x4d8897b0, 0xc044aac0, 0x7aa66f51, 0x579982b1] := by decide

/-- The window of S-3: the delimiter is its last byte. -/
theorem test_absorb_pad_window : xorWindow toy zeroLanes
    (paddedWindow toy ((List.range 31).map (BitVec.ofNat 8)) 0) =
      #v[0x00010203, 0x04050607, 0x08090a0b, 0x0c0d0e0f, 0x10111213, 0x14151617, 0x18191a1b, 0x1c1d1e06, 0, 0, 0, 0, 0, 0,
        0, 0] := by decide

/-- S-8. -/
theorem test_absorb_blk_zeros : (runWith toy .absorbBlk (withIn (List.replicate 32 0))).lanes = permutedZero := by
  decide

/-- E-7. -/
theorem test_absorb_blk_partial : lastAnswer (runWith toy .absorbBlk (withIn (List.replicate 33 0))) =
    some (3, 0x00000003, []) := by decide

/-- Q-1. -/
theorem test_squeeze_block : lastAnswer (runWith toy (.squeeze 32)
    { State.reset with lanes := ofLanes fun i => if i = 0 then 0x01020304 else if i = 1 then 0xA0B0C0D0 else 0 }) =
      some (0, 0, [0x04, 0x03, 0x02, 0x01, 0xD0, 0xC0, 0xB0, 0xA0] ++ List.replicate 24 0) := by decide

/-- Q-4. -/
theorem test_squeeze_partial : lastAnswer (runWith toy (.squeeze 16) (withIn [])) = some (4, 0x00000004, []) := by
  decide

/-- H-1. -/
def emptyDigest : List Byte := digestOfNat 0xfe7197b2d83950385033fd5561ba55075c65448cdfdc3f444cc4df1a0d309979

theorem test_hash_empty : lastAnswer (runWith toy (.hash 32) (withIn [])) = some (0, 0, emptyDigest) := by decide

/-- E-9. -/
theorem test_hash_outlen : lastAnswer (runWith toy (.hash 64) (withIn [])) = some (5, 0x00000005, []) := by decide

/-- R172: a finalized builder with an error latched is a fresh session, and the error stays. -/
theorem test_init_after_finalize : runWith toy .init
    { State.reset with lanes := permutedZero, phase := .finalized, err := .finAfterFin } =
      { State.reset with err := .finAfterFin, responses := [{ rerr := 0, status := 0x00000007, data := [] }] } := by
  decide

/-- B-1, its second row. -/
theorem test_update_remainder : lastAnswer (runWith toy .update (withIn (List.replicate 25 0x31))) =
    some (0, 0x00001900, []) := by decide

/-- E-16, with the latch of Program 3. -/
theorem test_update_after_finalize : lastAnswer (runWith toy .update
    { withIn [0x78] with phase := .finalized, err := .finAfterFin }) = some (6, 0x00000017, []) := by decide

/-- B-4. -/
theorem test_finalize_empty : lastAnswer (runWith toy .finalize (withIn [])) = some (0, 0x00000010, emptyDigest) := by
  decide

/-- E-17. -/
theorem test_finalize_twice : lastAnswer (runWith toy .finalize { withIn [] with phase := .finalized }) =
    some (7, 0x00000017, []) := by decide

/-- A-1. -/
theorem test_load_state : (runWith toy .loadState (withIn ([0x04, 0x03, 0x02, 0x01] ++ List.replicate 60 0))).lanes =
    ofLanes fun i => if i = 0 then 0x01020304 else 0 := by decide

/-- A-4. -/
theorem test_load_state_short : lastAnswer (runWith toy .loadState (withIn (List.replicate 63 0))) =
    some (2, 0x00000002, []) := by decide

/-- A-3, its first 8 bytes. -/
theorem test_read_state : (lastAnswer (runWith toy .readState { withIn [] with lanes := permutedZero })).map
    (fun r => (r.1, r.2.1, r.2.2.take 8, r.2.2.length)) =
      some (0, 0, [0xdd, 0x0c, 0x69, 0xd1, 0x9d, 0xde, 0x93, 0xbd], 64) := by decide

/-- Program 3, the CLEAR_ERR row. -/
theorem test_clear_err : lastAnswer (runWith toy .clearErr { withIn [] with phase := .finalized, err := .finAfterFin }) =
    some (0, 0x00000010, []) := by decide

/-! ## Witnesses of the hypotheses of the statements -/

/-- The reset state with inputs waiting. -/
def waiting (xs : List Input) : State := { State.reset with inbox := xs }

theorem witness_DecodeOfEncode : (Instr.squeeze 0).wf = true ∧ (Instr.hash 65535).wf = true := by decide

theorem witness_EncodeOfDecode : decode 0x0400FFFF = .ok (.squeeze 65535) := by decide

theorem witness_StepRunsDecodedCommand :
    (waiting [.frame (frameOf .permute [])]).inbox = .frame (frameOf .permute []) :: [] ∧
      decode (frameOf .permute []).cw = .ok .permute := by decide

/-- The condition of R65 on the fields of a word. -/
def illegalFields (cw : Word) : Bool :=
  let opc := (cw.extractLsb' 24 8).toNat
  let rsv := (cw.extractLsb' 16 8).toNat
  let imm := (cw.extractLsb' 0 16).toNat
  decide (opc < 0x01 ∨ 0x0B < opc ∨ rsv ≠ 0 ∨ (imm ≠ 0 ∧ opc ≠ 0x04 ∧ opc ≠ 0x05))

theorem witness_IllegalWordsRaiseEIllegal :
    illegalFields 0x00000000 = true ∧ illegalFields 0x0C000000 = true ∧ illegalFields 0xFF000000 = true ∧
      illegalFields 0x01010000 = true ∧ illegalFields 0x0B000001 = true ∧
      (waiting [.frame ⟨0x0C000000, []⟩]).inbox = .frame ⟨0x0C000000, []⟩ :: [] := by decide

theorem witness_IllegalWordsRaiseEIllegal_legal :
    illegalFields 0x01000000 = false ∧ illegalFields 0x0B000000 = false ∧ illegalFields 0x0400FFFF = false ∧
      illegalFields 0x0500FFFF = false := by decide

theorem witness_IdleInstanceHoldsState : State.reset.inbox = [] := rfl

theorem witness_ResetInputLeavesResetState :
    (waiting [.reset]).inbox = .reset :: [] ∧
      (waiting [.frameCutByReset (frameOf .permute [])]).inbox = .frameCutByReset (frameOf .permute []) :: [] :=
  ⟨rfl, rfl⟩

theorem witness_InitClearErrEqualsReset :
    (waiting [.frame (frameOf .init []), .frame (frameOf .clearErr [])]).inbox =
      .frame (frameOf .init []) :: .frame (frameOf .clearErr []) :: [] := rfl

/-- For PERMUTE, SQUEEZE, INIT, READ_STATE and CLEAR_ERR. -/
theorem witness_NoPayloadResults : (withIn []).payload = [] := rfl

theorem witness_AbsorbBlkResult : (withIn []).payload.length % 32 = 0 ∧
    (withIn (List.replicate 64 0)).payload.length % 32 = 0 := by decide

theorem witness_SqueezeResult : (withIn []).payload = [] ∧ 65504 % 32 = 0 ∧ 2046 < 65504 / 32 ∧
    (7 : Fin 16).val < 8 ∧ 3 < 4 := by decide

theorem witness_UpdateResult (n : Nat) (hn : n = 31 ∨ n = 32) :
    let s := { withIn [1, 2] with buf := List.replicate (n - 2) 0, plen := n - 2 }
    s.phase = .accepting ∧ (s.buf ++ s.payload).length = n := by
  rcases hn with rfl | rfl <;> exact ⟨rfl, rfl⟩

theorem witness_FinalizeResult : (withIn []).payload = [] ∧ (withIn []).phase = .accepting := ⟨rfl, rfl⟩

theorem witness_LoadStateResult : (withIn (List.replicate 64 0)).payload.length = 64 ∧ (15 : Fin 16).val < 16 ∧ 3 < 4 := by
  decide

theorem witness_ErrorsArePrecise : errorOf hardware .permute (withIn [0]) ≠ .noError ∧
    errorOf hardware (.squeeze 31) (withIn []) ≠ .noError ∧
    errorOf hardware .finalize { withIn [] with phase := .finalized } ≠ .noError := by decide

/-- The payload lengths of R63 at their bounds. -/
theorem witness_ErrorsArePrecise_lengths : (∀ n ∈ [63, 65], errorOf toy .loadState (withIn (List.replicate n 0)) = .payload) ∧
    errorOf toy .loadState (withIn (List.replicate 64 0)) = .noError ∧
    ∀ i ∈ [Instr.permute, .squeeze 32, .init, .finalize, .readState, .clearErr],
      errorOf toy i (withIn [0]) = .payload ∧ errorOf toy i (withIn []) = .noError := by decide

/-- E-15 of 95_test_vectors.md with PAYLOAD_MAX 3: one byte more raises E_PAYLOAD before E_OUTLEN. -/
theorem witness_ErrorsArePrecise_message : errorOf hardware (.hash 31) (withIn []) = .outLen ∧
    errorOf hardware .update { withIn [0] with phase := .finalized } = .updAfterFin ∧
    errorOf { toy with payloadMax := some 3 } (.hash 64) (withIn [0, 0, 0, 0]) = .payload ∧
    errorOf { toy with payloadMax := some 3 } (.hash 64) (withIn [0, 0, 0]) = .outLen := by decide

theorem witness_ErrorFreeCommandsComplete : errorOf hardware (.squeeze 32) (withIn []) = .noError ∧
    errorOf hardware .finalize (withIn []) = .noError := by decide

/-- Also for ResponseReportsFirstError; a frame that raises an error, a completing command, and CLEAR_ERR. -/
theorem witness_ErrLatchesFirstError : ∀ f ∈ [frameOf .permute [0], frameOf .init [], frameOf .clearErr []],
    ∀ e ∈ [ErrCode.noError, .finAfterFin],
      ({ waiting [.frame f] with err := e } : State).inbox = .frame f :: [] ∧
        ∃ t, step { waiting [.frame f] with err := e } = .next t := by
  intro f hf e _
  refine ⟨rfl, ?_⟩
  rw [step_eq_stepWith]
  rcases stepWith_cases hardware { waiting [.frame f] with err := e } with ⟨-, h⟩ | ⟨_, _, _, -, -, h⟩ | ⟨_, _, _, -, -, h⟩ | ⟨_, _, -, -, h⟩ <;>
    exact ⟨_, h⟩

theorem witness_StatusLayout : ({ State.reset with plen := 255 } : State).plen < 256 ∧
    ({ State.reset with phase := .finalized } : State).plen < 256 := by decide

/-- Also for StepKeepsBoundary and StepKeepsRepresentedMessage, from the reset state. -/
theorem witness_ResponsesHoldNoReservedValue : ∃ t, step (waiting [.frame (frameOf .init [])]) = .next t ∧
    ∃ r, r ∈ t.responses := ⟨_, rfl, _, List.mem_singleton.2 rfl⟩

theorem witness_OnlyNamedCommandsWriteState : (∃ t, exec .readState (withIn []) = .next t) ∧
    mayWriteLanes .readState = false ∧ mayWriteBuffer .readState = false ∧
    errorOf hardware .readState (withIn []) = .noError := ⟨⟨_, rfl⟩, rfl, rfl, by decide⟩

theorem witness_FinalizedUntilInit :
    let s := { waiting [.frame (frameOf .permute [])] with phase := .finalized }
    s.phase = .finalized ∧ s.inbox = [frameOf .permute []].map .frame ∧
      ∀ f ∈ [frameOf .permute []], decode f.cw ≠ .ok .init := ⟨rfl, rfl, by decide⟩

/-- The clauses of ABSORB_PAD and HASH, and of ABSORB_BLK, at the empty and at a whole block's payload. -/
theorem witness_PermutationCounts_absorb :
    IsWindows hardware [0x06 :: List.replicate 31 0] ((withIn []).payload ++ (0x06 :: List.replicate 31 0)) ∧
    IsWindows hardware [List.replicate 32 0, 0x06 :: List.replicate 31 0]
      ((withIn (List.replicate 32 0)).payload ++ (0x06 :: List.replicate 31 0)) ∧
    IsWindows hardware [] (withIn []).payload ∧
    IsWindows hardware [List.replicate 32 0] (withIn (List.replicate 32 0)).payload :=
  ⟨⟨by decide, rfl⟩, ⟨by decide, rfl⟩, ⟨by decide, rfl⟩, ⟨by decide, rfl⟩⟩

/-- The clauses of UPDATE, at a window completed and one byte short of it, and of FINALIZE, at PLEN 0 and 31. -/
theorem witness_PermutationCounts_builder :
    (∀ n ∈ [30, 31], let s := { withIn [0] with buf := List.replicate n 0, plen := n }
      s.phase = .accepting ∧ s.buf.length = s.plen ∧ (s.buf ++ s.payload).length = n + 1) ∧
    IsWindows hardware [List.replicate 32 0] (List.replicate 32 0) ∧ IsWindows hardware [] [] ∧
    ∀ n ∈ [0, 31], (List.replicate n (0 : Byte) ++ (0x06 :: List.replicate (31 - n) 0)).length = 32 :=
  ⟨by decide, ⟨by decide, rfl⟩, ⟨by decide, rfl⟩, by decide⟩

theorem witness_StepKeepsBoundary :
    AtBoundary (waiting [.frame (frameOf .init [])]) ∧ Represents (waiting [.frame (frameOf .init [])]) [] :=
  ⟨⟨rfl, (by decide : 0 < 32), fun h => (nomatch h), rfl, rfl⟩, ⟨Nat.le_refl _, rfl, fun _ => rfl⟩⟩

theorem witness_RotlMovesBits : 31 < 32 := by decide

/-- A parameter set whose matrix is the identity, and whose constants are 0. -/
def identityParams : Params := { toy with mtx := fun j k => decide (j = k), rc := fun _ _ => 0 }

/-- A parameter set whose matrix is 0. -/
def zeroMatrix : Params := { toy with mtx := fun _ _ => false }

theorem witness_DiffCornerCases : (∀ j k, identityParams.mtx j k = decide (j = k)) ∧ ∀ k, zeroMatrix.mtx 15 k = false :=
  ⟨fun _ _ => rfl, fun _ => rfl⟩

theorem witness_InjectIsInvolution : ∀ i, identityParams.rc 0 i = 0 := fun _ => rfl

theorem witness_ArxMixesPairs : 7 < 8 := by decide

theorem witness_PermuteCommandsCompose :
    (waiting [.frame (frameOf .permute []), .frame (frameOf .permute [])]).inbox =
      List.replicate 2 (.frame (frameOf .permute [])) ++ [] := rfl

theorem witness_PaddingAtBlockBoundaries : ([] : List Byte).length % toy.bb = 0 ∧
    (List.replicate 32 (0 : Byte)).length % toy.bb = 0 ∧ (List.replicate 31 (0 : Byte)).length % toy.bb = toy.bb - 1 := by
  decide

theorem witness_XorWindowPlacesBytesBigEndian : (List.replicate 32 (0 : Byte)).length = toy.bb ∧
    (7 : Fin 16).val < toy.rl ∧ 3 < 4 ∧ toy.rl ≤ (8 : Fin 16).val := by decide

theorem witness_BlockReadsRateLanes : (7 : Fin 16).val < toy.rl ∧ ∀ j : Fin 16, j.val < toy.rl →
    (ofLanes fun i => if i = 8 then 0xFFFFFFFF else 0).get j = zeroLanes.get j := by decide

/-- For the three composition laws. -/
theorem witness_CompositionLaws : (List.replicate 32 (0 : Byte)).length = toy.bb ∧
    (List.replicate 32 (0 : Byte)).length % toy.bb = 0 ∧ 64 % toy.bb = 0 := by decide

theorem witness_SqueezeInTwoCommands : 32 + 65472 < 65536 ∧ 32 % 32 = 0 ∧ 65472 % 32 = 0 ∧
    (waiting [.frame (frameOf (.squeeze 32) []), .frame (frameOf (.squeeze 65472) [])]).inbox =
      .frame (frameOf (.squeeze 32) []) :: .frame (frameOf (.squeeze 65472) []) :: [] := ⟨by decide, rfl, rfl, rfl⟩

theorem witness_LoadThenReadReturnsPayload : (List.replicate 64 (1 : Byte)).length = 64 ∧
    (waiting [.frame (frameOf .loadState (List.replicate 64 1)), .frame (frameOf .readState [])]).inbox =
      .frame (frameOf .loadState (List.replicate 64 1)) :: .frame (frameOf .readState []) :: [] := ⟨rfl, rfl⟩

theorem witness_DigestIsFirstEightLanes : (7 : Fin 16).val < 8 ∧ 3 < 4 := by decide

theorem witness_ShortDigestIgnoresRate : (List.replicate 31 (0 : Byte)).length < 32 := by decide

theorem witness_FinalizeAbsorbsOneWindow : ([] : List Byte).length < toy.bb ∧
    (List.replicate 31 (0 : Byte)).length < toy.bb := by decide

/-- H-11: a session with a HASH of another message in it, started by INIT. -/
def sessionFrames : List Frame := [frameOf .update [0x61, 0x62, 0x63], frameOf (.hash 32) [0x7A, 0x7A]]

theorem witness_StreamingEqualsOneShot :
    startsSession (.frame (frameOf .init [])) = true ∧ startsSession .reset = true ∧
      (∀ f ∈ sessionFrames, (isUpdate f = true ∧ fits toy f.payload.length = true) ∨ leavesSession f = true) ∧
      (waiting (.frame (frameOf .init []) :: (sessionFrames.map .frame ++ [.frame (frameOf .finalize [])]))).inbox =
        .frame (frameOf .init []) :: (sessionFrames.map .frame ++ [.frame (frameOf .finalize [])]) := by
  decide

theorem witness_BhashEqualsDigest : (waiting ((bhashFrames [0x61]).map .frame)).inbox =
    (bhashFrames [0x61]).map .frame ++ [] := rfl

theorem witness_InstancesAreIndependent : [State.reset, waiting [.reset]][1]? = some (waiting [.reset]) := rfl

end Tests
end Sys2Proof
end

section
/-! The scope of the CORE (00_scope.md): the left rotation of R15 bit by bit, and this hardware as the parametric
machine at its parameter set (R8 to R13, R29, R107, R108). -/

namespace Sys2Proof
namespace Machine

/-- The rotation of R15 is the library's rotation of a bit vector, whose bits are known. -/
theorem rotl_eq_rotateLeft (x : Word) (r : Nat) : rotl x r = x.rotateLeft r := rfl

theorem rotl_mod_width (x : Word) (r : Nat) : rotl x (r % 32) = rotl x r :=
  BitVec.rotateLeft_mod_eq_rotateLeft

@[simp] theorem rotl_zero (x : Word) : rotl x 0 = x := by
  simp [rotl, BitVec.ushiftRight_eq_zero]

/-- Where the bits of a rotated word come from: below the amount they wrap around from the top. -/
theorem getLsbD_rotl (x : Word) (r : Nat) {j : Nat} (hj : j < 32) :
    (rotl x r).getLsbD j =
      if j < r % 32 then x.getLsbD (32 - r % 32 + j) else x.getLsbD (j - r % 32) := by
  rw [rotl_eq_rotateLeft, BitVec.getLsbD_rotateLeft]
  by_cases hwrap : j < r % 32 <;> simp [hwrap, hj]

/-- Where a bit of the word goes; past bit 31 it wraps around to the bottom. -/
theorem getLsbD_rotl_add_mod (x : Word) (r : Nat) {i : Nat} (hi : i < 32) :
    (rotl x r).getLsbD ((i + r) % 32) = x.getLsbD i := by
  rw [getLsbD_rotl x r (Nat.mod_lt _ (by decide))]
  by_cases hwrap : i + r % 32 < 32
  · have hpos : (i + r) % 32 = i + r % 32 := by omega
    rw [hpos, if_neg (by omega), Nat.add_sub_cancel]
  · have hpos : (i + r) % 32 = i + r % 32 - 32 := by omega
    have hsource : 32 - r % 32 + (i + r % 32 - 32) = i := by omega
    rw [hpos, if_pos (by omega), hsource]

/-- The rounds of `P` with the four stages of each written out (R107, R108). -/
theorem permutation_eq_foldl_stages (p : Params) (S : Lanes) :
    permutation p S = (List.range p.nr).foldl (fun S r => arx (inject p (circ p (diff p S)) r)) S := rfl

/-- Settles O37: each bit by its place, and the two facts about the amount. -/
theorem rotlMovesBits : Obligations.RotlMovesBits :=
  ⟨fun x r _ hi => getLsbD_rotl_add_mod x r hi, fun x r => (rotl_mod_width x r).symm, rotl_zero⟩

/-- Settles O11: every command and the step are the parametric ones, and the parameters are read off `hardware`. -/
theorem stepIsParametricStep : Obligations.StepIsParametricStep :=
  ⟨exec_eq_runWith, step_eq_stepWith, hardware_bb, hardware_rl, hardware_delim, rfl,
    permutation_eq_foldl_stages hardware⟩

end Machine
end Sys2Proof
end

section
/-! The state of the CORE (10_state.md): the STATUS word field by field (R26), what a command writes and what it
leaves (R21, R23 to R25, R204), everything a step can leave behind, the command-boundary invariant (R31), and the
independence of the COREs of a system (R33, R50). -/

namespace Sys2Proof
namespace Machine

/-! ## The fields of the STATUS word -/

/-- The value `x` placed in a word from bit `k` up, all other bits 0. -/
def fieldAt {w : Nat} (x : BitVec w) (k : Nat) : Word := x.zeroExtend 32 <<< k

theorem fieldAt_extract_same {w : Nat} (x : BitVec w) {k : Nat} (hfit : k + w ≤ 32) :
    (fieldAt x k).extractLsb' k w = x := by
  ext j hj
  simp [fieldAt, show k + j < 32 by omega, BitVec.getLsbD_eq_getElem hj]

/-- Bits below a field, and bits above it, are 0. -/
theorem fieldAt_extract_apart {w : Nat} (x : BitVec w) {k start len : Nat} (hapart : start + len ≤ k ∨ k + w ≤ start) :
    (fieldAt x k).extractLsb' start len = 0 := by
  ext j hj
  rcases hapart with hbelow | habove
  · simp [fieldAt, show start + j < k by omega]
  · have hout : x.getLsbD (start + j - k) = false := BitVec.getLsbD_of_ge _ _ (by omega)
    simp [fieldAt, hout]

/-- STATUS is its four fields (R26). -/
theorem status_eq_fields (s : State) :
    s.status = fieldAt s.err.code 0 ||| fieldAt s.phase.bit 4 ||| fieldAt (BitVec.ofBool s.busy) 5 |||
      fieldAt (BitVec.ofNat 8 s.plen) 8 := by
  simp [State.status, fieldAt]

theorem status_errField (s : State) : s.status.extractLsb' 0 4 = s.err.code := by
  simp [status_eq_fields, BitVec.extractLsb'_or, fieldAt_extract_same, fieldAt_extract_apart]

theorem status_phaseField (s : State) : s.status.extractLsb' 4 1 = s.phase.bit := by
  simp [status_eq_fields, BitVec.extractLsb'_or, fieldAt_extract_same, fieldAt_extract_apart]

theorem status_busyField (s : State) : s.status.extractLsb' 5 1 = BitVec.ofBool s.busy := by
  simp [status_eq_fields, BitVec.extractLsb'_or, fieldAt_extract_same, fieldAt_extract_apart]

theorem status_plenField (s : State) : s.status.extractLsb' 8 8 = BitVec.ofNat 8 s.plen := by
  simp [status_eq_fields, BitVec.extractLsb'_or, fieldAt_extract_same, fieldAt_extract_apart]

/-- Bits 7..6 of STATUS are reserved (R26). -/
theorem status_lowReserved (s : State) : s.status.extractLsb' 6 2 = 0 := by
  simp [status_eq_fields, BitVec.extractLsb'_or, fieldAt_extract_apart]

/-- Bits 31..16 of STATUS are reserved (R26). -/
theorem status_highReserved (s : State) : s.status.extractLsb' 16 16 = 0 := by
  simp [status_eq_fields, BitVec.extractLsb'_or, fieldAt_extract_apart]

theorem phase_bit_eq_one {ph : Phase} : ph.bit = 1 ↔ ph = .finalized := by
  cases ph <;> decide

theorem phase_bit_eq_zero {ph : Phase} : ph.bit = 0 ↔ ph = .accepting := by
  cases ph <;> decide

/-! ## What a command without an error writes -/

@[simp] theorem written_inbox (p : Params) (i : Instr) (s : State) : (written p i s).inbox = s.inbox := by
  cases i <;> rfl

@[simp] theorem written_responses (p : Params) (i : Instr) (s : State) :
    (written p i s).responses = s.responses := by
  cases i <;> rfl

theorem written_lanes_of_not_mayWriteLanes {p : Params} {i : Instr} {s : State} (h : mayWriteLanes i = false) :
    (written p i s).lanes = s.lanes := by
  cases i with
  | hash _ | readState | clearErr => rfl
  | _ => simp [mayWriteLanes] at h

theorem written_sameBuilder {p : Params} {i : Instr} {s : State} (h : mayWriteBuffer i = false) :
    SameBuilder s (written p i s) := by
  cases i with
  | init | update | finalize => simp [mayWriteBuffer] at h
  | _ => exact ⟨rfl, rfl, rfl⟩

/-- Only INIT and FINALIZE write PHASE, each its own value (R23). -/
theorem written_phase_cases (p : Params) (i : Instr) (s : State) :
    (written p i s).phase = s.phase ∨ (i = .init ∧ (written p i s).phase = .accepting) ∨
      (i = .finalize ∧ (written p i s).phase = .finalized) := by
  cases i with
  | init => exact .inr (.inl ⟨rfl, rfl⟩)
  | finalize => exact .inr (.inr ⟨rfl, rfl⟩)
  | _ => exact .inl rfl

theorem written_err {p : Params} {i : Instr} {s : State} (h : i ≠ .clearErr) : (written p i s).err = s.err := by
  cases i with
  | clearErr => exact absurd rfl h
  | _ => rfl

/-- An UPDATE without an error runs in a session that accepts input (R174). -/
theorem accepting_of_update_errorFree {p : Params} {s : State} (h : errorOf p .update s = .noError) :
    s.phase = .accepting := by
  rcases hph : s.phase with _ | _
  · rfl
  · simp only [errorOf, extraCheck, hph, if_true] at h
    split at h <;> cases h

/-! ## What a command and a step can leave behind -/

/-- A command raises its error, or it writes and completes. -/
theorem exec_next_cases {i : Instr} {s t : State} (h : exec i s = .next t) :
    (errorOf hardware i s ≠ .noError ∧ t = s.raise (errorOf hardware i s)) ∨
    (errorOf hardware i s = .noError ∧ t = (written hardware i s).complete (answer hardware i s)) := by
  rw [exec_eq_runWith] at h
  injection h with h
  subst h
  by_cases he : errorOf hardware i s = .noError
  · exact .inr ⟨he, runWith_completes he⟩
  · exact .inl ⟨he, runWith_raises he⟩

/-- A step idles, answers a frame with an error, completes the command of a frame, or resets. -/
theorem step_next_cases {s t : State} (h : step s = .next t) :
    (s.inbox = [] ∧ t = s) ∨
    (∃ f held e, s.inbox = .frame f :: held ∧ e ≠ .noError ∧ t = (s.accept f held).raise e) ∨
    (∃ f held i, s.inbox = .frame f :: held ∧ decode f.cw = .ok i ∧
      errorOf hardware i (s.accept f held) = .noError ∧
      t = (written hardware i (s.accept f held)).complete (answer hardware i (s.accept f held))) ∨
    ∃ x held, (x = .reset ∨ ∃ f, x = .frameCutByReset f) ∧ s.inbox = x :: held ∧ t = s.assertReset held := by
  rw [step_eq_stepWith] at h
  rcases stepWith_cases hardware s with
    ⟨hin, hst⟩ | ⟨f, held, i, hin, hdec, hst⟩ | ⟨f, held, _, hin, -, hst⟩ | ⟨x, held, hx, hin, hst⟩
  · exact .inl ⟨hin, by simpa [h] using hst⟩
  · rw [← exec_eq_runWith] at hst
    rcases exec_next_cases (hst.symm.trans h) with ⟨he, ht⟩ | ⟨he, ht⟩
    · exact .inr (.inl ⟨f, held, _, hin, he, ht⟩)
    · exact .inr (.inr (.inl ⟨f, held, i, hin, hdec, he, ht⟩))
  · exact .inr (.inl ⟨f, held, .illegal, hin, by decide, by simpa [h] using hst⟩)
  · exact .inr (.inr (.inr ⟨x, held, hx, hin, by simpa [h] using hst⟩))

theorem step_frame {s : State} {f : Frame} {held : List Input} {i : Instr} (hin : s.inbox = .frame f :: held)
    (hdec : decode f.cw = .ok i) : step s = exec i (s.accept f held) := by
  simp [step, takeInput, executeFrame, hin, hdec]

/-- No input stops the machine. -/
theorem step_total (s : State) : ∃ t, step s = .next t := by
  rw [step_eq_stepWith]
  rcases stepWith_cases hardware s with ⟨-, h⟩ | ⟨_, _, _, -, -, h⟩ | ⟨_, _, _, -, -, h⟩ | ⟨_, _, -, -, h⟩ <;>
    exact ⟨_, h⟩

/-! ## The command-boundary invariant -/

/-- The part of the boundary invariant that is about the builder: items 2 and 4 of R31. -/
structure BuilderAtBoundary (s : State) : Prop where
  bufLength : s.buf.length = s.plen
  plenBound : s.plen < hardware.bb
  finalizedEmpty : s.phase = .finalized → s.buf = [] ∧ s.plen = 0

theorem AtBoundary.builder {s : State} (h : AtBoundary s) : BuilderAtBoundary s :=
  ⟨h.bufLength, h.plenBound, h.finalizedEmpty⟩

theorem BuilderAtBoundary.of_same {s t : State} (hb : BuilderAtBoundary s) (h : SameBuilder s t) :
    BuilderAtBoundary t where
  bufLength := by rw [h.buf, h.plen, hb.bufLength]
  plenBound := by rw [h.plen]; exact hb.plenBound
  finalizedEmpty := by rw [h.phase, h.buf, h.plen]; exact hb.finalizedEmpty

/-- Ending a command leaves the CORE idle, so the builder's part is all that is left to keep. -/
theorem BuilderAtBoundary.respond {s : State} (hb : BuilderAtBoundary s) (e : ErrCode) (d : List Byte) :
    AtBoundary (s.respond e d) :=
  ⟨hb.bufLength, hb.plenBound, hb.finalizedEmpty, rfl, rfl⟩

theorem BuilderAtBoundary.raise {s : State} (hb : BuilderAtBoundary s) (e : ErrCode) : AtBoundary (s.raise e) :=
  (hb.of_same ⟨rfl, rfl, rfl⟩ : BuilderAtBoundary { s with err := latch s.err e }).respond e []

/-- A remainder is shorter than a window, and PHASE is ACCEPTING, so that the clause for FINALIZED is not touched. -/
theorem updated_builderAtBoundary {s : State} (hph : s.phase = .accepting) :
    BuilderAtBoundary (s.updated (updBuilder hardware s.lanes s.buf s.payload)) where
  bufLength := rfl
  plenBound := by
    rw [State.updated_plen, updBuilder_buf_length]
    exact Nat.mod_lt _ (bb_pos hardware)
  finalizedEmpty := by simp [hph]

theorem written_builderAtBoundary {i : Instr} {s : State} (hb : BuilderAtBoundary s)
    (he : errorOf hardware i s = .noError) : BuilderAtBoundary (written hardware i s) := by
  cases i with
  | init => exact ⟨rfl, bb_pos hardware, fun _ => ⟨rfl, rfl⟩⟩
  | update => exact updated_builderAtBoundary (accepting_of_update_errorFree he)
  | finalize => exact ⟨rfl, bb_pos hardware, fun _ => ⟨rfl, rfl⟩⟩
  | _ => exact hb.of_same (written_sameBuilder rfl)

theorem assertReset_atBoundary (s : State) (held : List Input) : AtBoundary (s.assertReset held) :=
  ⟨rfl, bb_pos hardware, fun _ => ⟨rfl, rfl⟩, rfl, rfl⟩

/-- Settles O33: by what a step can leave; an answered frame keeps the builder's part, by what its command writes. -/
theorem stepKeepsBoundary : Obligations.StepKeepsBoundary := by
  intro s t hs hstep
  rcases step_next_cases hstep with
    ⟨-, rfl⟩ | ⟨f, held, e, -, -, rfl⟩ | ⟨f, held, i, -, -, he, rfl⟩ | ⟨_, held, -, -, rfl⟩
  · exact hs
  · have haccept : BuilderAtBoundary (s.accept f held) := hs.builder.of_same ⟨rfl, rfl, rfl⟩
    exact haccept.raise e
  · have haccept : BuilderAtBoundary (s.accept f held) := hs.builder.of_same ⟨rfl, rfl, rfl⟩
    exact (written_builderAtBoundary haccept he).respond .noError _
  · exact assertReset_atBoundary s held

/-- Settles O32: the reset state is what a reset with no held input leaves of itself. -/
theorem resetKeepsBoundary : Obligations.ResetKeepsBoundary := assertReset_atBoundary State.reset []

/-- Settles O34: nothing has been absorbed, and BUF is empty. -/
theorem resetRepresentsEmptyMessage : Obligations.ResetRepresentsEmptyMessage where
  tailWithin := Nat.le_refl 0
  tail := rfl
  wholeWindows := fun _ => Nat.zero_mod hardware.bb

/-! ## Responses -/

/-- A response with no reserved code, no reserved STATUS bit, BUSY 0, and no data beside an error. -/
structure Response.Clean (r : Response) : Prop where
  rerr : r.rerr.toNat ≤ 7
  err : (r.status.extractLsb' 0 4).toNat ≤ 7
  busy : r.status.extractLsb' 5 1 = 0
  lowReserved : r.status.extractLsb' 6 2 = 0
  highReserved : r.status.extractLsb' 16 16 = 0
  noDataWithError : r.rerr ≠ 0 → r.data = []

/-- Ending a command adds a clean response only: STATUS is sampled when the CORE is idle again (R47, R66). -/
theorem mem_respond_responses {s : State} {e : ErrCode} {d : List Byte} {r : Response}
    (hdata : e ≠ .noError → d = []) (hr : r ∈ (s.respond e d).responses) : r ∈ s.responses ∨ r.Clean := by
  rw [State.respond_responses, List.mem_append, List.mem_singleton] at hr
  refine hr.imp_right fun hnew => ?_
  subst hnew
  exact {
    rerr := code_le_seven e
    err := by rw [status_errField]; exact code_le_seven _
    busy := status_busyField _
    lowReserved := status_lowReserved _
    highReserved := status_highReserved _
    noDataWithError := fun he => hdata fun h => he (code_eq_zero.2 h) }

theorem step_adds_clean_response {s t : State} {r : Response} (hstep : step s = .next t) (hr : r ∈ t.responses) :
    r ∈ s.responses ∨ r.Clean := by
  rcases step_next_cases hstep with
    ⟨-, rfl⟩ | ⟨f, held, e, -, -, rfl⟩ | ⟨f, held, i, -, -, -, rfl⟩ | ⟨_, held, -, -, rfl⟩
  · exact .inl hr
  · exact mem_respond_responses (s := { s.accept f held with err := latch s.err e }) (fun _ => rfl) hr
  · have hdone := mem_respond_responses (s := written hardware i (s.accept f held)) (fun h => absurd rfl h) hr
    rwa [written_responses] at hdone
  · exact .inl hr

/-- Settles O28: the clauses of a clean response. -/
theorem responsesHoldNoReservedValue : Obligations.ResponsesHoldNoReservedValue := by
  intro s t hstep r hr
  refine (step_adds_clean_response hstep hr).imp_right fun h => ?_
  exact ⟨h.rerr, h.err, h.busy, h.lowReserved, h.highReserved, h.noDataWithError⟩

/-! ## Who writes what -/

/-- Settles O29: an error writes the latch only, and a command without one writes what `written` says. -/
theorem onlyNamedCommandsWriteState : Obligations.OnlyNamedCommandsWriteState := by
  intro i s t h
  rcases exec_next_cases h with ⟨he, rfl⟩ | ⟨-, rfl⟩
  · exact ⟨fun _ => rfl, fun _ => ⟨rfl, rfl⟩, fun hph => absurd rfl hph, fun hno => absurd hno he, rfl⟩
  · refine ⟨written_lanes_of_not_mayWriteLanes, fun hbuf => ?_, fun hph => ?_, fun _ => written_err,
      written_inbox hardware i s⟩
    · have hsame := written_sameBuilder (p := hardware) (s := s) hbuf
      exact ⟨hsame.buf, hsame.plen⟩
    · exact (written_phase_cases hardware i s).resolve_left hph

/-! ## Systems -/

/-- One step, and then the rest of a run. -/
theorem run_succ {s t : State} (h : step s = .next t) (k : Nat) : core.run (k + 1) s = core.run k t := by
  have hcore : core.step s = .next t := h
  simp only [Host.Core.run, hcore]

/-- The step of CORE `k` of a system is its own step alone, and leaves every other one (R33). -/
theorem stepInstance_next (k : Nat) (sys : List State) :
    ∃ sys', stepInstance k sys = .next sys' ∧ sys'.length = sys.length ∧
      (∀ s, sys[k]? = some s → ∃ t, step s = .next t ∧ sys'[k]? = some t) ∧
      ∀ j, j ≠ k → sys'[j]? = sys[j]? := by
  rcases hk : sys[k]? with _ | s
  · exact ⟨sys, by simp [stepInstance, hk], rfl, by simp, fun _ _ => rfl⟩
  · obtain ⟨t, ht⟩ := step_total s
    obtain ⟨hlt, -⟩ := List.getElem?_eq_some_iff.1 hk
    refine ⟨sys.set k t, by simp [stepInstance, hk, ht], List.length_set, ?_, fun j hj => ?_⟩
    · rintro s' ⟨⟩
      exact ⟨t, ht, List.getElem?_set_self hlt⟩
    · exact List.getElem?_set_ne hj.symm

/-- Settles O60, by induction on the schedule: its first entry takes the first of the steps of the CORE it names,
and none of the others'. -/
theorem instancesAreIndependent : Obligations.InstancesAreIndependent := by
  intro ks
  induction ks with
  | nil => exact fun sys => ⟨sys, rfl, rfl, fun _ s hs => ⟨s, rfl, hs⟩⟩
  | cons k ks ih =>
    intro sys
    obtain ⟨mid, hmid, hlen, hself, hother⟩ := stepInstance_next k sys
    obtain ⟨sys', hrun, hlen', halone⟩ := ih mid
    refine ⟨sys', by simp [runSchedule, hmid, hrun], hlen'.trans hlen, fun j s hs => ?_⟩
    by_cases hj : j = k
    · subst hj
      obtain ⟨u, hu, hmidj⟩ := hself s hs
      rw [List.count_cons_self, run_succ hu]
      exact halone j u hmidj
    · rw [List.count_cons_of_ne (Ne.symm hj)]
      exact halone j s ((hother j hj).trans hs)

/-! ## A step, the reset values, and the layout of STATUS -/

/-- Settles O5: accepting a frame is the update the statement writes out. -/
theorem stepRunsDecodedCommand : Obligations.StepRunsDecodedCommand :=
  fun _ _ _ _ hin hdec => step_frame hin hdec

/-- Settles O9: the lanes are the zero state value, and the rest is read off `State.reset`. -/
theorem resetStateValues : Obligations.ResetStateValues := by
  refine ⟨fun i => ?_, rfl, rfl, rfl, rfl, rfl, by decide⟩
  rw [reset_lanes, get_zeroLanes]

/-- Settles O27: field by field; PLEN below 256 is what its 8 bits can hold. -/
theorem statusLayout : Obligations.StatusLayout := by
  intro s hplen
  rw [status_errField, status_phaseField, status_busyField, status_plenField]
  exact ⟨rfl, rfl, phase_bit_eq_one, phase_bit_eq_zero, rfl, status_lowReserved s,
    by rw [BitVec.toNat_ofNat]; exact Nat.mod_eq_of_lt hplen, status_highReserved s⟩

end Machine
end Sys2Proof
end

section
/-! Decoding and encoding of command words (30_encoding.md): a word is its three fields (R61), the words the decoder
accepts and refuses (R64, R65), the meaning of illegal words and of errors (R67, R201 to R204), the completion of
every command (R66, R239), and the pseudo-instruction BHASH (R70). -/

namespace Sys2Proof

/-! ## A word and its three fields -/

/-- A word is its OPC, RSV and IMM16 (R61): each bit lies in one of the three. -/
theorem word_eq_of_fields {v w : Word} (hopc : opcField v = opcField w) (hrsv : rsvField v = rsvField w)
    (himm : immField v = immField w) : v = w := by
  apply BitVec.eq_of_getLsbD_eq
  intro j hj
  by_cases hlow : j < 16
  · have h := congrArg (BitVec.getLsbD · j) himm
    simpa [immField, hlow] using h
  by_cases hmid : j < 24
  · have h := congrArg (BitVec.getLsbD · (j - 16)) hrsv
    simpa [rsvField, show j - 16 < 8 by omega, show 16 + (j - 16) = j by omega] using h
  · have h := congrArg (BitVec.getLsbD · (j - 24)) hopc
    simpa [opcField, show j - 24 < 8 by omega, show 24 + (j - 24) = j by omega] using h

/-- The mask of the lower half leaves IMM16, zero-extended (R62). -/
theorem toNat_and_lowMask (cw : Word) : (cw &&& (0x0000FFFF : Word)).toNat = (immField cw).toNat := by
  rw [BitVec.toNat_and, show (0x0000FFFF : Word).toNat = 2 ^ 16 - 1 from rfl, Nat.and_two_pow_sub_one_eq_mod]
  simp [immField]

/-- The mask of the upper half leaves OPC and RSV, and a word with neither RSV nor IMM16 is its OPC. -/
theorem and_highMask_eq_iff {cw m : Word} (hrsv : rsvField m = 0) (himm : immField m = 0) :
    cw &&& (0xFFFF0000 : Word) = m ↔ opcField cw = opcField m ∧ rsvField cw = 0 := by
  have hopcMask : opcField (cw &&& 0xFFFF0000) = opcField cw := by
    unfold opcField
    rw [BitVec.extractLsb'_and, show (0xFFFF0000 : Word).extractLsb' 24 8 = BitVec.allOnes 8 by decide,
      BitVec.and_allOnes]
  have hrsvMask : rsvField (cw &&& 0xFFFF0000) = rsvField cw := by
    unfold rsvField
    rw [BitVec.extractLsb'_and, show (0xFFFF0000 : Word).extractLsb' 16 8 = BitVec.allOnes 8 by decide,
      BitVec.and_allOnes]
  have himmMask : immField (cw &&& 0xFFFF0000) = 0 := by
    unfold immField
    rw [BitVec.extractLsb'_and, show (0xFFFF0000 : Word).extractLsb' 0 16 = 0 by decide]
    exact BitVec.and_zero
  constructor
  · intro h
    rw [← h] at hrsv ⊢
    exact ⟨hopcMask.symm, hrsvMask ▸ hrsv⟩
  · rintro ⟨hopc, hzero⟩
    exact word_eq_of_fields (hopcMask.trans hopc) (by rw [hrsvMask, hzero, hrsv]) (himmMask.trans himm.symm)

/-! ## A command and its operand -/

/-- A command is its opcode and operand (R64). -/
@[simp] theorem opcode_instr_operand (i : Instr) : i.opcode.instr i.operand = i := by
  cases i <;> rfl

@[simp] theorem instr_opcode (op : Opcode) (imm : Nat) : (op.instr imm).opcode = op := by
  cases op <;> rfl

/-- Only SQUEEZE and HASH keep the operand they are built with (R62). -/
theorem instr_operand (op : Opcode) (imm : Nat) :
    (op.instr imm).operand = if op.takesOperand then imm else 0 := by
  cases op <;> rfl

theorem operand_of_not_takesOperand {i : Instr} (h : i.opcode.takesOperand = false) : i.operand = 0 := by
  have hop := instr_operand i.opcode i.operand
  simpa [h] using hop

/-- A command is well formed exactly when IMM16 can hold its operand. -/
theorem wf_iff_operand_lt {i : Instr} : i.wf = true ↔ i.operand < 65536 := by
  cases i <;> simp [Instr.wf, Instr.operand]

/-- The two opcodes that take an operand, by their codes (R62, R64). -/
theorem takesOperand_eq_false_iff {op : Opcode} :
    op.takesOperand = false ↔ op.bits.toNat ≠ 0x04 ∧ op.bits.toNat ≠ 0x05 := by
  cases op <;> decide

/-! ## The words the decoder accepts -/

/-- What the decoder accepts, field by field: the command's OPC, RSV 0, and the operand, 0 where there is none. -/
theorem decode_eq_ok_iff {cw : Word} {i : Instr} :
    decode cw = .ok i ↔ opcField cw = i.opcode.bits ∧ rsvField cw = 0 ∧ (immField cw).toNat = i.operand := by
  constructor
  · intro h
    unfold decode at h
    split at h
    · cases h
    next op hop =>
      split at h
      · cases h
      next hrsv =>
        split at h
        · cases h
        next hstray =>
          injection h with h
          subst h
          rw [instr_opcode, instr_operand]
          refine ⟨(bits_ofBits hop).symm, not_not.1 hrsv, ?_⟩
          cases htakes : op.takesOperand with
          | true => rfl
          | false =>
            have himm : immField cw = 0 := not_not.1 fun hne => hstray ⟨hne, htakes⟩
            rw [himm]
            rfl
  · rintro ⟨hopc, hrsv, himm⟩
    have hstray : ¬(immField cw ≠ 0 ∧ i.opcode.takesOperand = false) := fun ⟨hne, hnone⟩ =>
      hne (BitVec.eq_of_toNat_eq (himm.trans (operand_of_not_takesOperand hnone)))
    simp only [decode, hopc, ofBits_bits]
    rw [if_neg (not_not.2 hrsv), if_neg hstray, himm, opcode_instr_operand]

theorem decode_encode {i : Instr} (h : i.wf = true) : decode (encode i) = .ok i := by
  refine decode_eq_ok_iff.2 ⟨opcField_encode i, rsvField_encode i, ?_⟩
  rw [immField_encode, BitVec.toNat_ofNat]
  exact Nat.mod_eq_of_lt (wf_iff_operand_lt.1 h)

theorem wf_of_decode {cw : Word} {i : Instr} (h : decode cw = .ok i) : i.wf = true := by
  obtain ⟨-, -, himm⟩ := decode_eq_ok_iff.1 h
  exact wf_iff_operand_lt.2 (himm ▸ (immField cw).isLt)

theorem encode_of_decode {cw : Word} {i : Instr} (h : decode cw = .ok i) : encode i = cw := by
  obtain ⟨hopc, hrsv, himm⟩ := decode_eq_ok_iff.1 h
  refine word_eq_of_fields ((opcField_encode i).trans hopc.symm) ((rsvField_encode i).trans hrsv.symm) ?_
  rw [immField_encode, ← himm, BitVec.ofNat_toNat, BitVec.setWidth_eq]

/-- The decoder and the encoder are inverse: the row of the opcode map as one word. -/
theorem decode_eq_ok_iff_eq_encode {cw : Word} {i : Instr} (h : i.wf = true) : decode cw = .ok i ↔ cw = encode i :=
  ⟨fun hdec => (encode_of_decode hdec).symm, fun hcw => hcw ▸ decode_encode h⟩

/-- The row of a command with an operand: its upper half, and the operand in the lower one. -/
theorem decode_eq_ok_iff_masks {cw m : Word} {i : Instr} (hrsv : rsvField m = 0) (himm : immField m = 0)
    (hopc : opcField m = i.opcode.bits) :
    decode cw = .ok i ↔
      cw &&& (0xFFFF0000 : Word) = m ∧ i.operand = (cw &&& (0x0000FFFF : Word)).toNat := by
  rw [decode_eq_ok_iff, and_highMask_eq_iff hrsv himm, hopc, toNat_and_lowMask, and_assoc,
    eq_comm (a := i.operand)]

/-- Settles O1: the three fields of the word of a command are those the decoder asks for. -/
theorem decodeOfEncode : Obligations.DecodeOfEncode := fun _ h => decode_encode h

/-- Settles O2: the decoder fixes every field of a word it accepts. -/
theorem encodeOfDecode : Obligations.EncodeOfDecode := fun _ _ h => ⟨wf_of_decode h, encode_of_decode h⟩

/-- Settles O3: the nine rows without an operand are single words, the two others go by masks. -/
theorem decodeMatchesOpcodeMap : Obligations.DecodeMatchesOpcodeMap := by
  intro cw
  have hword : ∀ {i : Instr}, i.wf = true → (decode cw = .ok i ↔ cw = encode i) := decode_eq_ok_iff_eq_encode
  exact ⟨hword rfl, hword rfl, hword rfl, hword rfl, hword rfl, hword rfl, hword rfl, hword rfl, hword rfl,
    fun n => decode_eq_ok_iff_masks (i := .squeeze n) (by decide) (by decide) rfl,
    fun n => decode_eq_ok_iff_masks (i := .hash n) (by decide) (by decide) rfl⟩

/-- Settles O4: the decoder run on each word. -/
theorem exampleWords : Obligations.ExampleWords := by
  unfold Obligations.ExampleWords
  decide

/-! ## The words the decoder refuses -/

/-- The illegal words of R65, by their fields. -/
theorem decode_eq_error_iff {cw : Word} :
    (∃ e, decode cw = .error e) ↔ (opcField cw).toNat < 0x01 ∨ 0x0B < (opcField cw).toNat ∨
      (rsvField cw).toNat ≠ 0 ∨
      ((immField cw).toNat ≠ 0 ∧ (opcField cw).toNat ≠ 0x04 ∧ (opcField cw).toNat ≠ 0x05) := by
  have hrsv : (rsvField cw).toNat ≠ 0 ↔ rsvField cw ≠ 0 := BitVec.toNat_ne_iff_ne (y := 0)
  have himm : (immField cw).toNat ≠ 0 ↔ immField cw ≠ 0 := BitVec.toNat_ne_iff_ne (y := 0)
  rw [hrsv, himm, ← or_assoc, ← ofBits_eq_none]
  unfold decode
  split
  next hnone => simp [hnone]
  next op hop =>
    rw [← bits_ofBits hop, ← takesOperand_eq_false_iff, ofBits_bits]
    split
    next hreserved => exact iff_of_true ⟨_, rfl⟩ (.inr (.inl hreserved))
    next hzero =>
      split
      next hstray => exact iff_of_true ⟨_, rfl⟩ (.inr (.inr hstray))
      next hnone => exact iff_of_false (by rintro ⟨_, ⟨⟩⟩) (by rintro (⟨⟨⟩⟩ | h | h) <;> contradiction)

end Sys2Proof

namespace Sys2Proof
namespace Machine

/-! ## Illegal words and the frames of commands -/

/-- A frame with an illegal word is answered before any other check (R65, R202). -/
theorem step_illegal {s : State} {f : Frame} {held : List Input} {e : Illegal} (hin : s.inbox = .frame f :: held)
    (hdec : decode f.cw = .error e) : step s = .next ((s.accept f held).raise .illegal) := by
  simp [step, takeInput, executeFrame, hin, hdec]

/-- Settles O6: the fields say whether the decoder refuses the word, and the two cases are the two kinds of step. -/
theorem illegalWordsRaiseEIllegal : Obligations.IllegalWordsRaiseEIllegal := by
  intro s f held hin
  dsimp only
  split
  next hfields =>
    obtain ⟨e, hdec⟩ := decode_eq_error_iff.2 hfields
    exact ⟨_, step_illegal hin hdec, raise_raised _ _⟩
  next hfields =>
    rcases hdec : decode f.cw with e | i
    · exact absurd (decode_eq_error_iff.1 ⟨e, hdec⟩) hfields
    · exact ⟨i, rfl, wf_of_decode hdec, step_frame hin hdec⟩

/-- The frame of a well-formed command without an error: what it writes, and then its answer. -/
theorem step_frameOf_completes {s : State} {i : Instr} {payload : List Byte} {held : List Input}
    (hin : s.inbox = .frame (frameOf i payload) :: held) (hwf : i.wf = true)
    (he : errorOf hardware i (s.accept (frameOf i payload) held) = .noError) :
    step s = .next ((written hardware i (s.accept (frameOf i payload) held)).complete
      (answer hardware i (s.accept (frameOf i payload) held))) := by
  rw [step_frame hin (decode_encode hwf), exec_eq_runWith, runWith_completes he]

/-! ## The error of a command -/

theorem extraCheck_ne_payload (p : Params) (i : Instr) (s : State) : extraCheck p i s ≠ .payload := by
  cases i with
  | absorbBlk | squeeze _ | hash _ | update | finalize =>
    simp only [extraCheck]
    split <;> exact nofun
  | _ => exact nofun

/-- E_PAYLOAD is raised exactly when the payload's length is not one of its class (R63, R202). -/
theorem errorOf_eq_payload_iff {p : Params} {i : Instr} {s : State} :
    errorOf p i s = .payload ↔ (payloadClass i).admits p s.payload.length = false := by
  unfold errorOf
  split
  next hadmits => simp [hadmits, extraCheck_ne_payload]
  next hrefused => simpa using hrefused

theorem errorOf_eq_noError_iff {p : Params} {i : Instr} {s : State} :
    errorOf p i s = .noError ↔
      (payloadClass i).admits p s.payload.length = true ∧ extraCheck p i s = .noError := by
  unfold errorOf
  split
  next hadmits => simp [hadmits]
  next hrefused => simp [hrefused]

theorem admits_noPayload_eq_false {p : Params} {len : Nat} :
    PayloadClass.noPayload.admits p len = false ↔ len ≠ 0 := decide_eq_false_iff_not

theorem admits_state64_eq_false {p : Params} {len : Nat} :
    PayloadClass.state64.admits p len = false ↔ len ≠ 64 := decide_eq_false_iff_not

/-- A message and whole blocks have the same bound, PAYLOAD_MAX (R63). -/
theorem admits_message {p : Params} {c : PayloadClass} {len : Nat} (hc : c = .msg ∨ c = .blocks) :
    c.admits p len = fits p len := by
  rcases hc with rfl | rfl <;> rfl

theorem raised_of_errorOf {p : Params} {i : Instr} {s : State} (h : errorOf p i s ≠ .noError) :
    Raised s (runWith p i s) (errorOf p i s) := by
  rw [runWith_raises h]
  exact raise_raised s _

/-- Settles O23: a command with an error is `State.raise`; the lengths are those of the payload's class. -/
theorem errorsArePrecise : Obligations.ErrorsArePrecise := by
  refine ⟨fun i s h => ⟨_, exec_eq_runWith i s, raised_of_errorOf h⟩, fun _ _ _ => raised_of_errorOf,
    fun p i s hi => ?_, fun p s => errorOf_eq_payload_iff.trans admits_state64_eq_false, fun p i s hi => ?_⟩
  · have hclass : payloadClass i = .noPayload := by
      rcases hi with hmem | ⟨n, rfl⟩
      · revert i
        decide
      · rfl
    rw [errorOf_eq_payload_iff, hclass, admits_noPayload_eq_false, Ne, List.length_eq_zero_iff]
  · have hclass : payloadClass i = .msg ∨ payloadClass i = .blocks := by
      rcases hi with hmem | ⟨n, rfl⟩
      · revert i
        decide
      · exact .inl rfl
    rw [errorOf_eq_payload_iff, admits_message hclass, fits_eq_false]

/-! ## The data of a command -/

/-- A block has `BB` bytes, four from each rate lane (R135). -/
theorem rateBlock_length (p : Params) (S : Lanes) : (rateBlock p S).length = p.bb := by
  have hbytes : (rateBlock p S).length = (laneNumbers.take p.rl).length * 4 :=
    flatMap_length_of_const _ _ 4 fun _ => le4_length _
  rw [hbytes]
  rcases bb_cases p with ⟨-, hbb, hrl⟩ | ⟨-, hbb, hrl⟩ <;> simp [hbb, hrl, laneNumbers]

theorem squeeze_length (p : Params) (S : Lanes) {n : Nat} (hn : n % p.bb = 0) : (squeeze p S n).2.length = n := by
  rw [squeeze_eq, flatMap_length_of_const _ _ p.bb fun _ => rateBlock_length p _, List.length_range]
  exact Nat.div_mul_cancel (Nat.dvd_of_mod_eq_zero hn)

/-- The squeezed blocks hold a whole digest, at either rate (R161). -/
theorem squeeze32_length (p : Params) (S : Lanes) : (squeeze32 p S).2.length = 32 := by
  have hblocks : 32 ≤ (32 + (p.bb - 1)) / p.bb * p.bb := by
    rcases bb_cases p with ⟨-, hbb, -⟩ | ⟨-, hbb, -⟩ <;> simp [hbb]
  show (List.take 32 _).length = 32
  rw [List.length_take, squeeze_length p S (Nat.mul_mod_left _ _)]
  exact Nat.min_eq_left hblocks

theorem imageOfLanes_length (S : Lanes) : (imageOfLanes S).length = 64 :=
  flatMap_length_of_const laneNumbers _ 4 fun _ => le4_length _

/-- A SQUEEZE without an error asks for whole blocks (R142). -/
theorem wholeBlocks_of_squeeze_errorFree {p : Params} {n : Nat} {s : State}
    (h : errorOf p (.squeeze n) s = .noError) : n % p.bb = 0 := by
  obtain ⟨-, hextra⟩ := errorOf_eq_noError_iff.1 h
  by_contra hn
  simp [extraCheck, hn] at hextra

/-- DATA of a command without an error has the length of R66. -/
theorem answer_length {p : Params} {i : Instr} {s : State} (h : errorOf p i s = .noError) :
    (answer p i s).length = dataLength i := by
  cases i with
  | squeeze n => exact squeeze_length p s.lanes (wholeBlocks_of_squeeze_errorFree h)
  | hash _ => exact squeeze32_length p _
  | finalize => exact squeeze32_length p _
  | readState => exact imageOfLanes_length s.lanes
  | _ => rfl

/-- A command without an error completes with the data of its kind, and leaves ERR unless it is CLEAR_ERR. -/
theorem completes_of_errorFree {p : Params} {i : Instr} {s : State} (h : errorOf p i s = .noError) :
    ∃ D, Answered s (runWith p i s) .noError D ∧ D.length = dataLength i ∧
      (i ≠ .clearErr → (runWith p i s).err = s.err) := by
  rw [runWith_completes h]
  have hanswered := complete_answered (written p i s) (answer p i s)
  exact ⟨answer p i s, hanswered.of_same (written_responses p i s) (written_inbox p i s), answer_length h, written_err⟩

/-- Settles O24: `exec` is the parametric command at this hardware's parameter set. -/
theorem errorFreeCommandsComplete : Obligations.ErrorFreeCommandsComplete := by
  refine ⟨fun i s h => ?_, fun _ _ _ => completes_of_errorFree⟩
  obtain ⟨D, hanswered, hlen, herr⟩ := completes_of_errorFree h
  exact ⟨_, D, exec_eq_runWith i s, hanswered, hlen, herr⟩

/-! ## Every input is consumed -/

theorem answeredFrames_cons (x : Input) (xs : List Input) :
    answeredFrames (x :: xs) = answeredFrames [x] + answeredFrames xs :=
  List.countP_append (l₁ := [x]) (l₂ := xs)

/-- A step consumes the oldest input, and answers it if it is a frame that no reset cuts. -/
theorem step_consumes {s : State} {x : Input} {held : List Input} (hin : s.inbox = x :: held) :
    ∃ t new, step s = .next t ∧ t.inbox = held ∧ t.responses = s.responses ++ new ∧
      new.length = answeredFrames [x] := by
  obtain ⟨t, ht⟩ := step_total s
  rcases step_next_cases ht with
    ⟨hempty, -⟩ | ⟨f, held', e, hin', -, rfl⟩ | ⟨f, held', i, hin', -, -, rfl⟩ | ⟨y, held', hy, hin', rfl⟩
  · cases hin.symm.trans hempty
  · cases hin.symm.trans hin'
    exact ⟨_, _, ht, rfl, rfl, rfl⟩
  · cases hin.symm.trans hin'
    exact ⟨_, _, ht, by simp, by simp; rfl, rfl⟩
  · cases hin.symm.trans hin'
    have hcut : answeredFrames [x] = 0 := by rcases hy with rfl | ⟨f, rfl⟩ <;> rfl
    exact ⟨_, [], ht, rfl, (List.append_nil _).symm, hcut.symm⟩

/-- Settles O36, by induction on the inputs held: a step consumes the first, and the rest of the run the others. -/
theorem everyFrameIsAnswered : Obligations.EveryFrameIsAnswered := by
  intro s
  generalize hin : s.inbox = xs
  induction xs generalizing s with
  | nil => exact ⟨s, rfl, hin, List.prefix_refl _, rfl⟩
  | cons x held ih =>
    obtain ⟨mid, new, hstep, hheld, hnew, hlen⟩ := step_consumes hin
    obtain ⟨t, hrun, hempty, hprefix, hcount⟩ := ih mid hheld
    refine ⟨t, (run_succ hstep held.length).trans hrun, hempty, ?_, ?_⟩
    · exact (hnew ▸ List.prefix_append s.responses new).trans hprefix
    · rw [hcount, hnew, List.length_append, hlen, answeredFrames_cons x held, Nat.add_assoc]

/-! ## Absorbing in windows, and the builder against the digest -/

/-- One window more than the whole windows of the message: the delimiter always has a place (R131). -/
theorem windowCount_eq (p : Params) (len : Nat) : windowCount p len = len / p.bb + 1 := by
  unfold windowCount
  rw [bits_eq]
  rcases bb_cases p with ⟨-, hbb, -⟩ | ⟨-, hbb, -⟩ <;> rw [hbb] <;> omega

/-- Padding a message does not touch what stands before it. -/
theorem padByte_append_right (p : Params) (A B : List Byte) (q : Nat) :
    padByte p (A ++ B) (A.length + q) = padByte p B q := by
  have hbyte : byteAt (A ++ B) (A.length + q) = byteAt B q := by
    rw [byteAt, List.getD_append_right _ _ _ _ (Nat.le_add_right _ _), Nat.add_sub_cancel_left, byteAt]
  simp [padByte, hbyte]

/-- The windows of the padded message that lie inside its first part are windows of that part. -/
theorem paddedWindow_append_left (p : Params) {A : List Byte} (B : List Byte) {w : Nat}
    (hw : (w + 1) * p.bb ≤ A.length) : paddedWindow p (A ++ B) w = slice A (w * p.bb) p.bb := by
  rw [Nat.succ_mul] at hw
  apply List.ext_getElem
  · simp [paddedWindow, slice]
    omega
  · intro q hq _
    have hq' : q < p.bb := by simpa [paddedWindow] using hq
    have hpos : w * p.bb + q < A.length := by omega
    simp [paddedWindow, slice, padByte, byteAt, List.getD_eq_getElem?_getD, hpos,
      show w * p.bb + q < A.length + B.length by omega]

/-- The windows after whole windows are those of the rest of the message. -/
theorem paddedWindow_append_right (p : Params) {A : List Byte} (B : List Byte) (w : Nat) {n : Nat}
    (hA : A.length = n * p.bb) : paddedWindow p (A ++ B) (n + w) = paddedWindow p B w := by
  unfold paddedWindow
  refine List.map_congr_left fun q _ => ?_
  rw [Nat.add_mul, ← hA, Nat.add_assoc, padByte_append_right]

/-- Absorbing whole windows and then the rest with padding is absorbing all of it with padding: the loop of R133 over
the concatenation, cut after the whole windows. -/
theorem absorbPad_append (p : Params) (S : Lanes) {A : List Byte} (B : List Byte) (hA : A.length % p.bb = 0) :
    absorbPad p S (A ++ B) = absorbPad p (absorbBlk p S A) B := by
  obtain ⟨n, hn⟩ := Nat.dvd_of_mod_eq_zero hA
  rw [Nat.mul_comm] at hn
  have hcountA : A.length / p.bb = n := by rw [hn, Nat.mul_div_cancel n (bb_pos p)]
  have hcount : windowCount p (A ++ B).length = n + windowCount p B.length := by
    rw [windowCount_eq, windowCount_eq, List.length_append, hn, Nat.add_comm (n * p.bb),
      Nat.add_mul_div_right _ _ (bb_pos p)]
    omega
  have hfirst : (List.range n).foldl (fun S w => absorbWindow p S (paddedWindow p (A ++ B) w)) S = absorbBlk p S A := by
    unfold absorbBlk
    rw [hcountA]
    refine List.foldl_ext _ _ S fun T w hw => ?_
    have hinside : (w + 1) * p.bb ≤ A.length := hn ▸ Nat.mul_le_mul_right p.bb (List.mem_range.1 hw)
    rw [paddedWindow_append_left p B hinside]
  unfold absorbPad
  rw [hcount, List.range_add, List.foldl_append, hfirst, List.foldl_map]
  simp only [paddedWindow_append_right p B _ hn]

/-- Closing a session after one more chunk is closing it with the chunk still pending (R173, R176). -/
theorem finBuilder_updBuilder (p : Params) (S : Lanes) (buf c : List Byte) :
    finBuilder p (updBuilder p S buf c).1 (updBuilder p S buf c).2 = finBuilder p S (buf ++ c) := by
  have hwhole : ((buf ++ c).take ((buf ++ c).length / p.bb * p.bb)).length % p.bb = 0 := by
    rw [List.length_take, Nat.min_eq_left (Nat.div_mul_le_self _ _)]
    exact Nat.mul_mod_left _ _
  have habsorb := absorbPad_append p S ((buf ++ c).drop ((buf ++ c).length / p.bb * p.bb)) hwhole
  rw [List.take_append_drop] at habsorb
  exact congrArg (squeeze32 p) habsorb.symm

/-- The data of a session of one chunk is its digest (R160, R176). -/
theorem finBuilder_zeroLanes (p : Params) (M : List Byte) : (finBuilder p zeroLanes M).2 = digest p M := rfl

/-- The last response of a command that completes. -/
theorem getLast?_complete_responses (s : State) (d : List Byte) :
    (s.complete d).responses.getLast? = some { rerr := 0, status := (s.complete d).status, data := d } := by
  rw [State.complete_responses, List.getLast?_concat]

theorem step_init {s : State} {held : List Input} (hin : s.inbox = .frame (frameOf .init []) :: held) :
    ∃ t, step s = .next t ∧ t.inbox = held ∧ t.lanes = zeroLanes ∧ t.buf = [] ∧ t.phase = .accepting :=
  ⟨_, step_frameOf_completes hin rfl (errorOf_eq_noError_iff.2 ⟨rfl, rfl⟩), rfl, rfl, rfl, rfl⟩

/-- UPDATE in a session that accepts input, with any payload: PAYLOAD_MAX of this hardware is unbounded (log 7). -/
theorem step_update {s : State} {payload : List Byte} {held : List Input}
    (hin : s.inbox = .frame (frameOf .update payload) :: held) (hph : s.phase = .accepting) :
    ∃ t, step s = .next t ∧ t.inbox = held ∧ t.lanes = (updBuilder hardware s.lanes s.buf payload).1 ∧
      t.buf = (updBuilder hardware s.lanes s.buf payload).2 ∧ t.phase = .accepting :=
  ⟨_, step_frameOf_completes hin rfl (errorOf_eq_noError_iff.2 ⟨rfl, by simp [extraCheck, hph]⟩), rfl, rfl, rfl, hph⟩

/-- FINALIZE in a session that accepts input. -/
theorem step_finalize {s : State} {held : List Input} (hin : s.inbox = .frame (frameOf .finalize []) :: held)
    (hph : s.phase = .accepting) :
    ∃ u : State, step s = .next (u.complete (finBuilder hardware s.lanes s.buf).2) ∧ u.phase = .finalized :=
  ⟨_, step_frameOf_completes hin rfl (errorOf_eq_noError_iff.2 ⟨rfl, by simp [extraCheck, hph]⟩), rfl⟩

/-- The three frames of BHASH (R70): a session of one chunk, which FINALIZE closes with its digest. -/
theorem run_bhash {s : State} {payload : List Byte} {held : List Input}
    (hin : s.inbox = (bhashFrames payload).map .frame ++ held) :
    ∃ u : State, core.run 3 s = .next (u.complete (digest hardware payload)) ∧ u.phase = .finalized := by
  obtain ⟨fresh, hinit, hin', hlanes, hbuf, hph⟩ := step_init hin
  obtain ⟨fed, hupdate, hin'', hlanes', hbuf', hph'⟩ := step_update hin' hph
  obtain ⟨u, hfinalize, hdone⟩ := step_finalize hin'' hph'
  rw [hlanes', hbuf', finBuilder_updBuilder, hlanes, hbuf, List.nil_append, finBuilder_zeroLanes] at hfinalize
  refine ⟨u, ?_, hdone⟩
  rw [run_succ hinit, run_succ hupdate, run_succ hfinalize]
  rfl

/-- Settles O59: both sides answer the digest of the payload. -/
theorem bhashEqualsDigest : Obligations.BhashEqualsDigest := by
  intro s payload held hin
  obtain ⟨u, hrun, hphase⟩ := run_bhash hin
  have hdigest := step_frameOf_completes (i := .hash 32)
    (s := { s with inbox := (digestFrames payload).map .frame ++ held }) rfl rfl (errorOf_eq_noError_iff.2 ⟨rfl, rfl⟩)
  exact ⟨_, _, _, _, hrun, getLast?_complete_responses _ _, hdigest, getLast?_complete_responses _ _, rfl, rfl, rfl,
    hphase, rfl, ⟨rfl, rfl, rfl⟩⟩

end Machine
end Sys2Proof
end

section
/-! The permutation (40_permutation.md): its four stages (R100 to R105) and their inverses (R104, R106), the rounds in
order (R107, R108), PERMUTE (R110), and the permutations that every command runs (R238). -/

namespace Sys2Proof
namespace Machine

/-! ## Rotation: the words it keeps, and its inverse -/

@[simp] theorem rotl_xor (x y : Word) (r : Nat) : rotl (x ^^^ y) r = rotl x r ^^^ rotl y r := by
  refine BitVec.eq_of_getLsbD_eq fun j hj => ?_
  rw [BitVec.getLsbD_xor, getLsbD_rotl _ r hj, getLsbD_rotl _ r hj, getLsbD_rotl _ r hj]
  split <;> exact BitVec.getLsbD_xor

@[simp] theorem rotl_of_zero (r : Nat) : rotl 0#32 r = 0#32 := by
  simp [rotl]

@[simp] theorem rotl_of_allOnes (r : Nat) : rotl (BitVec.allOnes 32) r = BitVec.allOnes 32 := by
  refine BitVec.eq_of_getLsbD_eq fun j hj => ?_
  rw [getLsbD_rotl _ r hj]
  split <;> simp only [BitVec.getLsbD_allOnes, decide_eq_decide] <;> omega

/-- Two rotations by amounts that make up whole turns undo each other. -/
theorem rotl_rotl_cancel (x : Word) {r r' : Nat} (hturn : (r + r') % 32 = 0) : rotl (rotl x r) r' = x := by
  refine BitVec.eq_of_getLsbD_eq fun j hj => ?_
  have hback : ((j + r) % 32 + r') % 32 = j := by omega
  calc (rotl (rotl x r) r').getLsbD j
      = (rotl (rotl x r) r').getLsbD (((j + r) % 32 + r') % 32) := by rw [hback]
    _ = (rotl x r).getLsbD ((j + r) % 32) := getLsbD_rotl_add_mod _ _ (Nat.mod_lt _ (by decide))
    _ = x.getLsbD j := getLsbD_rotl_add_mod _ _ hj

/-! ## Stage 1 -/

/-- What input lane `k` contributes to output lane `j` of stage 1. -/
def contribution (p : Params) (S : Lanes) (j k : Fin 16) : Word := if p.mtx j k then S.get k else 0

theorem diffLane_eq_foldl_contribution (p : Params) (S : Lanes) (j : Fin 16) :
    diffLane p S j = (List.finRange 16).foldl (fun acc k => acc ^^^ contribution p S j k) 0 := by
  rw [← laneNumbers_eq_finRange]
  refine List.foldl_ext _ _ _ fun acc k _ => ?_
  unfold contribution
  split <;> simp

theorem getLsbD_contribution (p : Params) (S : Lanes) (j k : Fin 16) (b : Nat) :
    (contribution p S j k).getLsbD b = (p.mtx j k && (S.get k).getLsbD b) := by
  unfold contribution
  split <;> simp [*]

@[simp] theorem contribution_xor (p : Params) (A B : Lanes) (j k : Fin 16) :
    contribution p (ofLanes fun i => A.get i ^^^ B.get i) j k = contribution p A j k ^^^ contribution p B j k := by
  unfold contribution
  split <;> simp

theorem contribution_of_not_selected {p : Params} {j k : Fin 16} (S : Lanes) (h : p.mtx j k = false) :
    contribution p S j k = 0 := by
  simp [contribution, h]

theorem contribution_of_zero {p : Params} {S : Lanes} {k : Fin 16} (j : Fin 16) (h : S.get k = 0) :
    contribution p S j k = 0 := by
  simp [contribution, h]

/-- Terms that are 0 add nothing to an exclusive-or. -/
theorem foldl_xor_of_zero {α : Type} {l : List α} {f : α → Word} (h : ∀ k ∈ l, f k = 0) (acc : Word) :
    l.foldl (fun acc k => acc ^^^ f k) acc = acc := by
  induction l with
  | nil => rfl
  | cons a l ih =>
    have hrest := ih fun k hk => h k (List.mem_cons_of_mem a hk)
    simpa [h a List.mem_cons_self] using hrest

theorem foldl_xor_xor {α : Type} (l : List α) (f g : α → Word) :
    l.foldl (fun acc k => acc ^^^ (f k ^^^ g k)) 0 =
      l.foldl (fun acc k => acc ^^^ f k) 0 ^^^ l.foldl (fun acc k => acc ^^^ g k) 0 :=
  List.foldl_hom₂ l (fun a b : Word => a ^^^ b) (fun acc k => acc ^^^ f k) (fun acc k => acc ^^^ g k)
    (fun acc k => acc ^^^ (f k ^^^ g k)) 0 0 fun a b k => by ac_rfl

/-- An output lane that no input lane reaches is 0. -/
theorem diffLane_of_zero {p : Params} {S : Lanes} {j : Fin 16} (h : ∀ k, contribution p S j k = 0) :
    diffLane p S j = 0 := by
  rw [diffLane_eq_foldl_contribution]
  exact foldl_xor_of_zero (fun k _ => h k) 0

/-- An output lane that one input lane reaches alone: the lanes before it and behind it add nothing. -/
theorem diffLane_of_single {p : Params} {S : Lanes} {j : Fin 16} (k : Fin 16)
    (h : ∀ i, i ≠ k → contribution p S j i = 0) : diffLane p S j = contribution p S j k := by
  obtain ⟨before, behind, hsplit⟩ := List.append_of_mem (List.mem_finRange k)
  have hnodup := List.nodup_finRange 16
  rw [hsplit, List.nodup_middle, List.nodup_cons, List.mem_append, not_or] at hnodup
  obtain ⟨⟨hbefore, hbehind⟩, -⟩ := hnodup
  have hzero {l : List (Fin 16)} (hk : k ∉ l) : ∀ i ∈ l, contribution p S j i = 0 :=
    fun i hi => h i fun hik => hk (hik ▸ hi)
  rw [diffLane_eq_foldl_contribution, hsplit, List.foldl_append, List.foldl_cons, foldl_xor_of_zero (hzero hbefore),
    foldl_xor_of_zero (hzero hbehind)]
  exact BitVec.zero_xor

theorem diffLane_xor (p : Params) (A B : Lanes) (j : Fin 16) :
    diffLane p (ofLanes fun i => A.get i ^^^ B.get i) j = diffLane p A j ^^^ diffLane p B j := by
  simp only [diffLane_eq_foldl_contribution, contribution_xor]
  exact foldl_xor_xor (List.finRange 16) _ _

/-- Settles O38: a bit of the exclusive-or of the contributions is the exclusive-or of their bits. -/
theorem diffIsMatrixProduct : Obligations.DiffIsMatrixProduct := by
  intro p S j b
  rw [get_diff, diffLane_eq_foldl_contribution, ← List.foldl_hom (fun x : Word => x.getLsbD b)
    (g₂ := fun acc k => xor acc (p.mtx j k && (S.get k).getLsbD b))
    fun acc k => by rw [BitVec.getLsbD_xor, getLsbD_contribution]]
  exact congrArg (List.foldl _ · _) BitVec.getLsbD_zero

/-- Settles O39: in each corner case, which input lanes reach an output lane. -/
theorem diffCornerCases : Obligations.DiffCornerCases := by
  refine ⟨fun p A B j => ?_, fun p => lanes_ext fun j => ?_, fun p S j hrow => ?_,
    fun p S hid => lanes_ext fun j => ?_, fun p k v j => ?_⟩
  · rw [get_diff, get_diff, get_diff, diffLane_xor]
  · rw [get_diff, get_zeroLanes]
    exact diffLane_of_zero fun k => contribution_of_zero j (get_zeroLanes k)
  · rw [get_diff]
    exact diffLane_of_zero fun k => contribution_of_not_selected S (hrow k)
  · rw [get_diff, diffLane_of_single j fun i hi => contribution_of_not_selected S (by simp [hid, hi.symm])]
    simp [contribution, hid]
  · rw [get_diff, diffLane_of_single k fun i hi => contribution_of_zero j (by simp [hi])]
    simp [contribution]

/-! ## Stage 2 -/

theorem circLane_xor (x y : Word) (c d : Nat) : circLane (x ^^^ y) c d = circLane x c d ^^^ circLane y c d := by
  simp only [circLane, rotl_xor]
  ac_rfl

/-- Settles O40: the corner cases are those of the rotations, of which two equal ones cancel. -/
theorem circCornerCases : Obligations.CircCornerCases := by
  refine ⟨get_circ, fun x c => ?_, fun x c => ?_, fun c d => ?_, fun c d => ?_, circLane_xor, by decide⟩
  · simp [circLane]
  · simp [circLane]
  · simp [circLane]
  · show circLane (BitVec.allOnes 32) c d = BitVec.allOnes 32
    simp only [circLane, rotl_of_allOnes, BitVec.xor_self, BitVec.zero_xor]

/-! ## Stage 3 -/

/-- Settles O41: lane by lane, and a constant XORed in twice cancels. -/
theorem injectIsInvolution : Obligations.InjectIsInvolution := by
  refine fun p S r => ⟨get_inject p S r, lanes_ext fun i => ?_, fun hrow => lanes_ext fun i => ?_⟩
  · rw [get_inject, get_inject, BitVec.xor_assoc, BitVec.xor_self]
    exact BitVec.xor_zero
  · rw [get_inject, hrow]
    exact BitVec.xor_zero

/-! ## Stage 4 -/

/-- The four statements of R105 on one pair, in closed form. -/
theorem arxPair_eq (a b : Word) : arxPair a b = (rotl (a + b) 8, rotl (a + b) 8 + rotl b 24) := rfl

theorem get_arx_even (S : Lanes) {i : Nat} (hi : i < 8) :
    (arx S).get ⟨2 * i, by omega⟩ = (arxPair (S.get ⟨2 * i, by omega⟩) (S.get ⟨2 * i + 1, by omega⟩)).1 := by
  rw [get_arx, if_pos (Nat.mul_mod_right 2 i)]
  simp [evenLane, oddLane]

theorem get_arx_odd (S : Lanes) {i : Nat} (hi : i < 8) :
    (arx S).get ⟨2 * i + 1, by omega⟩ = (arxPair (S.get ⟨2 * i, by omega⟩) (S.get ⟨2 * i + 1, by omega⟩)).2 := by
  have hpair : (2 * i + 1) / 2 = i := by omega
  rw [get_arx, if_neg (by simp)]
  simp [evenLane, oddLane, hpair]

/-- Settles O42: the two lanes of a pair are the two components of the pair map. -/
theorem arxMixesPairs : Obligations.ArxMixesPairs :=
  fun S _ hi => ⟨get_arx_even S hi, get_arx_odd S hi⟩

/-- Settles O43: a rotation by 8 and one by 24 make a whole turn, and each sum is undone by a difference. -/
theorem arxPairIsBijection : Obligations.ArxPairIsBijection := by
  refine ⟨fun a b => ?_, fun a' b' => ?_, by decide, by decide, by decide, by decide⟩
  · have hb : rotl (rotl b 24) 8 = b := rotl_rotl_cancel b rfl
    have hsum : rotl (rotl (a + b) 8) 24 = a + b := rotl_rotl_cancel (a + b) rfl
    simp only [arxPair_eq, add_sub_cancel_left, hb, hsum, BitVec.add_sub_cancel, and_self]
  · have ha : rotl (rotl a' 24) 8 = a' := rotl_rotl_cancel a' rfl
    have hdiff : rotl (rotl (b' - a') 8) 24 = b' - a' := rotl_rotl_cancel (b' - a') rfl
    simp only [arxPair_eq, BitVec.sub_add_cancel, ha, hdiff, add_sub_cancel]

/-! ## The rounds -/

/-- Settles O44: the rounds are numbered from 0, and one round more comes last. -/
theorem permutationRunsRoundsInOrder : Obligations.PermutationRunsRoundsInOrder := by
  refine fun p S n => ⟨rfl, ?_⟩
  rw [permutation_eq_foldl_stages, List.range_succ, List.foldl_append]
  rfl

/-! ## PERMUTE -/

/-- A command of this hardware without an error writes, and completes with its data. -/
theorem exec_completes {i : Instr} {s : State} (h : errorOf hardware i s = .noError) :
    exec i s = .next ((written hardware i s).complete (answer hardware i s)) := by
  rw [exec_eq_runWith, runWith_completes h]

theorem admits_noPayload {p : Params} {s : State} (h : s.payload = []) :
    PayloadClass.noPayload.admits p s.payload.length = true := by
  simp [PayloadClass.admits, h]

theorem permute_errorFree {p : Params} {s : State} (h : s.payload = []) : errorOf p .permute s = .noError :=
  errorOf_eq_noError_iff.2 ⟨admits_noPayload h, rfl⟩

/-- Settles O12: PERMUTE completes, and what it writes is the lanes. -/
theorem permuteResult : Obligations.PermuteResult :=
  fun _ hin => ⟨_, exec_completes (permute_errorFree hin), (complete_answered _ _).of_same rfl rfl, rfl,
    ⟨rfl, rfl, rfl⟩, rfl⟩

theorem SameBuilder.trans {s t u : State} (hst : SameBuilder s t) (htu : SameBuilder t u) : SameBuilder s u :=
  ⟨htu.buf.trans hst.buf, htu.plen.trans hst.plen, htu.phase.trans hst.phase⟩

theorem step_permute {s : State} {held : List Input} (hin : s.inbox = .frame (frameOf .permute []) :: held) :
    ∃ t, step s = .next t ∧ t.lanes = permutation hardware s.lanes ∧ SameBuilder s t ∧ t.err = s.err ∧
      t.inbox = held :=
  ⟨_, step_frameOf_completes hin rfl (permute_errorFree rfl), rfl, ⟨rfl, rfl, rfl⟩, rfl, rfl⟩

/-- Settles O45, by induction on the number of frames: the first permutes the lanes that the others start from. -/
theorem permuteCommandsCompose : Obligations.PermuteCommandsCompose := by
  intro s k held hin
  induction k generalizing s with
  | zero => exact ⟨s, rfl, rfl, ⟨rfl, rfl, rfl⟩, rfl, hin⟩
  | succ k ih =>
    obtain ⟨mid, hstep, hlanes, hbuilder, herr, hheld⟩ := step_permute hin
    obtain ⟨t, hrun, hlanes', hbuilder', herr', hheld'⟩ := ih mid hheld
    refine ⟨t, (run_succ hstep k).trans hrun, ?_, hbuilder.trans hbuilder', herr'.trans herr, hheld'⟩
    rw [hlanes', hlanes, Function.iterate_succ_apply]

end Machine
end Sys2Proof
end

section
/-! The permutations that the commands run (R238 of 70_reset_and_hazards.md): the loops of the sponge over given
windows, and each command's lanes or data as those of its loop. -/

namespace Sys2Proof
namespace Machine

/-! ## Sequences cut into windows -/

theorem IsWindows.length {p : Params} {Ws : List (List Byte)} {B : List Byte} (h : IsWindows p Ws B) :
    B.length = Ws.length * p.bb := by
  obtain ⟨hwhole, rfl⟩ := h
  rw [List.length_flatten, List.map_congr_left hwhole, List.map_const', List.sum_replicate, smul_eq_mul]

/-- What stands behind whole windows and is shorter than a window does not count as one. -/
theorem IsWindows.length_div {p : Params} {Ws : List (List Byte)} {B : List Byte} (h : IsWindows p Ws B) {r : Nat}
    (hr : r < p.bb) : (B.length + r) / p.bb = Ws.length := by
  rw [h.length, Nat.add_comm, Nat.add_mul_div_right _ _ (bb_pos p), Nat.div_eq_of_lt hr, Nat.zero_add]

theorem slice_append_left (W B : List Byte) : slice (W ++ B) 0 W.length = W := by
  simp [slice]

theorem slice_append_right (W B : List Byte) (a n : Nat) : slice (W ++ B) (W.length + a) n = slice B a n := by
  simp [slice]

/-- The loop of R134 absorbs the first window, and then goes on with the rest. -/
theorem absorbBlk_window_append (p : Params) (S : Lanes) {W : List Byte} (B : List Byte) (hW : W.length = p.bb) :
    absorbBlk p S (W ++ B) = absorbBlk p (absorbWindow p S W) B := by
  have hcount : (W ++ B).length / p.bb = B.length / p.bb + 1 := by
    rw [List.length_append, hW, Nat.add_div_left _ (bb_pos p)]
  have hfirst : slice (W ++ B) (0 * p.bb) p.bb = W := by rw [Nat.zero_mul, ← hW, slice_append_left]
  have hnext (w : Nat) : slice (W ++ B) ((w + 1) * p.bb) p.bb = slice B (w * p.bb) p.bb := by
    rw [Nat.succ_mul, Nat.add_comm, ← hW, slice_append_right]
  unfold absorbBlk
  rw [hcount, List.range_succ_eq_map, List.foldl_cons, List.foldl_map, hfirst]
  simp only [Nat.succ_eq_add_one, hnext]

/-- AbsorbBlk runs one permutation for each window. -/
theorem absorbBlk_eq_absorbEach {p : Params} {Ws : List (List Byte)} {B : List Byte} (h : IsWindows p Ws B)
    (S : Lanes) : absorbBlk p S B = absorbEach p S Ws := by
  obtain ⟨hwhole, rfl⟩ := h
  induction Ws generalizing S with
  | nil => exact absorbBlk_nil p S
  | cons W Ws ih =>
    obtain ⟨hW, hrest⟩ := List.forall_mem_cons.1 hwhole
    rw [List.flatten_cons, absorbBlk_window_append p S _ hW]
    exact ih (absorbWindow p S W) hrest

/-! ## The padded message -/

/-- The message, the delimiter, and `k` zeros (R130). -/
def paddedMessage (p : Params) (M : List Byte) (k : Nat) : List Byte := M ++ (p.delim :: List.replicate k 0)

@[simp] theorem paddedMessage_length (p : Params) (M : List Byte) (k : Nat) :
    (paddedMessage p M k).length = M.length + (k + 1) := by
  simp [paddedMessage]

/-- Past its end the padded message reads as zeros too, so this holds of every position. -/
theorem padByte_eq_byteAt (p : Params) (M : List Byte) (k q : Nat) :
    padByte p M q = byteAt (paddedMessage p M k) q := by
  unfold padByte byteAt paddedMessage
  rcases Nat.lt_trichotomy q M.length with hlt | rfl | hgt
  · rw [if_pos hlt, List.getD_append _ _ _ _ hlt]
  · simp
  · obtain ⟨d, rfl⟩ := Nat.exists_eq_add_of_lt hgt
    rw [if_neg (by omega), if_neg (by omega), Nat.add_assoc, List.getD_append_right _ _ _ _ (by omega),
      Nat.add_sub_cancel_left, List.getD_cons_succ, List.getD_eq_getElem?_getD,
      List.getElem?_getD_replicate_default_eq]

theorem slice_eq_map_byteAt {B : List Byte} {a n : Nat} (h : a + n ≤ B.length) :
    slice B a n = (List.range n).map fun q => byteAt B (a + q) := by
  apply List.ext_getElem
  · rw [slice, List.length_take, List.length_drop, List.length_map, List.length_range]
    omega
  · intro q _ hq
    have hq : q < n := by simpa using hq
    simp [slice, byteAt, show a + q < B.length by omega]

/-- The padded message has one window more than the message has whole ones. -/
theorem IsWindows.length_padded {p : Params} {Ws : List (List Byte)} {M : List Byte} {k : Nat}
    (h : IsWindows p Ws (paddedMessage p M k)) (hk : k < p.bb) : Ws.length = M.length / p.bb + 1 := by
  rw [← Nat.add_div_right _ (bb_pos p), ← h.length_div (r := p.bb - 1 - k) (by omega), paddedMessage_length]
  congr 1
  omega

/-- AbsorbPad runs one permutation for each window of the padded message. -/
theorem absorbPad_eq_absorbEach {p : Params} {Ws : List (List Byte)} {M : List Byte} {k : Nat}
    (h : IsWindows p Ws (paddedMessage p M k)) (hk : k < p.bb) (S : Lanes) :
    absorbPad p S M = absorbEach p S Ws := by
  rw [← absorbBlk_eq_absorbEach h]
  unfold absorbPad absorbBlk
  rw [windowCount_eq, ← h.length_padded hk, h.length, Nat.mul_div_cancel _ (bb_pos p)]
  refine List.foldl_ext _ _ S fun T w hw => ?_
  have hinside : w * p.bb + p.bb ≤ (paddedMessage p M k).length := by
    rw [h.length, ← Nat.succ_mul]
    exact Nat.mul_le_mul_right p.bb (List.mem_range.1 hw)
  simp only [slice_eq_map_byteAt hinside, ← padByte_eq_byteAt, paddedWindow]

/-! ## The builder's loop, and the digest -/

/-- Upd absorbs the whole windows of `BUF ++ C` and keeps the rest (R173). -/
theorem updBuilder_eq_absorbEach {p : Params} {Ws : List (List Byte)} {whole rest buf c : List Byte}
    (h : IsWindows p Ws whole) (hrest : rest.length < p.bb) (hcut : whole ++ rest = buf ++ c) (S : Lanes) :
    updBuilder p S buf c = (absorbEach p S Ws, rest) := by
  have hwhole : (whole ++ rest).length / p.bb * p.bb = whole.length := by
    rw [List.length_append, h.length_div hrest, h.length]
  unfold updBuilder
  simp only [← hcut, hwhole, List.take_left, List.drop_left, absorbBlk_eq_absorbEach h]

/-- With blocks of 32 bytes the digest is one block, read before its permutation (R161). -/
theorem squeeze32_of_r256 {p : Params} (hrate : p.rate = .r256) (S : Lanes) :
    squeeze32 p S = (permutation p S, rateBlock p S) := by
  have hbb := bb_of_r256 hrate
  have hblock : (rateBlock p S).length ≤ 32 := by rw [rateBlock_length, hbb]
  simp [squeeze32, Config.digestBytes, squeeze_eq, hbb, List.take_of_length_le hblock]

/-! ## The table of R238 -/

theorem permutations_of_errorFree {p : Params} {i : Instr} {s : State} (h : errorOf p i s = .noError) :
    permutations p i s = loopPermutations p i s := if_pos h

theorem permutations_of_error {p : Params} {i : Instr} {s : State} (h : errorOf p i s ≠ .noError) :
    permutations p i s = 0 := if_neg h

/-- A command whose loops are empty runs no permutation, with an error or without. -/
theorem permutations_of_no_loop {p : Params} {i : Instr} {s : State} (h : loopPermutations p i s = 0) :
    permutations p i s = 0 := by
  by_cases he : errorOf p i s = .noError
  · rw [permutations_of_errorFree he, h]
  · exact permutations_of_error he

/-- ABSORB_PAD: a permutation for each window of the padded payload. -/
theorem absorbPad_permutations {s : State} {Ws : List (List Byte)} {k : Nat} (hk : k < hardware.bb)
    (h : IsWindows hardware Ws (paddedMessage hardware s.payload k)) :
    permutations hardware .absorbPad s = Ws.length ∧
      ∃ t, exec .absorbPad s = .next t ∧ t.lanes = absorbEach hardware s.lanes Ws := by
  have he : errorOf hardware .absorbPad s = .noError := errorOf_eq_noError_iff.2 ⟨rfl, rfl⟩
  refine ⟨?_, _, exec_completes he, absorbPad_eq_absorbEach h hk s.lanes⟩
  rw [permutations_of_errorFree he, h.length_padded hk]
  exact windowCount_eq hardware _

/-- HASH: a permutation for each window of the padded payload, and one for the block read. -/
theorem hash_permutations {s : State} {Ws : List (List Byte)} {k : Nat} (hk : k < hardware.bb)
    (h : IsWindows hardware Ws (paddedMessage hardware s.payload k)) :
    permutations hardware (.hash 32) s = Ws.length + 1 ∧
      ∃ t, exec (.hash 32) s = .next t ∧
        Answered s t .noError (rateBlock hardware (absorbEach hardware zeroLanes Ws)) := by
  have he : errorOf hardware (.hash 32) s = .noError := errorOf_eq_noError_iff.2 ⟨rfl, rfl⟩
  have hdigest : digest hardware s.payload = rateBlock hardware (absorbEach hardware zeroLanes Ws) := by
    rw [digest, absorbPad_eq_absorbEach h hk, squeeze32_of_r256 rfl]
  refine ⟨?_, _, exec_completes he, hdigest ▸ complete_answered s _⟩
  rw [permutations_of_errorFree he, h.length_padded hk, ← windowCount_eq]
  rfl

/-- ABSORB_BLK: a permutation for each window of the payload. -/
theorem absorbBlk_permutations {s : State} {Ws : List (List Byte)} (h : IsWindows hardware Ws s.payload) :
    permutations hardware .absorbBlk s = Ws.length ∧
      ∃ t, exec .absorbBlk s = .next t ∧ t.lanes = absorbEach hardware s.lanes Ws := by
  have hblocks : s.payload.length % hardware.bb = 0 := by rw [h.length, Nat.mul_mod_left]
  have he : errorOf hardware .absorbBlk s = .noError := errorOf_eq_noError_iff.2 ⟨rfl, if_pos hblocks⟩
  refine ⟨?_, _, exec_completes he, absorbBlk_eq_absorbEach h s.lanes⟩
  rw [permutations_of_errorFree he]
  exact h.length_div (bb_pos hardware)

/-- SQUEEZE: a permutation for each block read. -/
theorem squeeze_permutations {s : State} {n : Nat} (hin : s.payload = []) (hn : n % hardware.bb = 0) :
    permutations hardware (.squeeze n) s = n / hardware.bb ∧
      ∃ t, exec (.squeeze n) s = .next t ∧ t.lanes = (permutation hardware)^[n / hardware.bb] s.lanes := by
  have he : errorOf hardware (.squeeze n) s = .noError := errorOf_eq_noError_iff.2 ⟨admits_noPayload hin, if_pos hn⟩
  exact ⟨permutations_of_errorFree he, _, exec_completes he, congrArg Prod.fst (squeeze_eq hardware s.lanes n)⟩

/-- UPDATE: a permutation for each whole window of `BUF ++ In`. -/
theorem update_permutations {s : State} {Ws : List (List Byte)} {whole rest : List Byte} (hph : s.phase = .accepting)
    (h : IsWindows hardware Ws whole) (hrest : rest.length < hardware.bb) (hcut : whole ++ rest = s.buf ++ s.payload) :
    permutations hardware .update s = Ws.length ∧
      ∃ t, exec .update s = .next t ∧ t.lanes = absorbEach hardware s.lanes Ws ∧ t.buf = rest := by
  have he : errorOf hardware .update s = .noError := errorOf_eq_noError_iff.2 ⟨rfl, by simp [extraCheck, hph]⟩
  have hupd := updBuilder_eq_absorbEach h hrest hcut s.lanes
  refine ⟨?_, _, exec_completes he, congrArg Prod.fst hupd, congrArg Prod.snd hupd⟩
  rw [permutations_of_errorFree he, loopPermutations, ← List.length_append, ← hcut, List.length_append,
    h.length_div hrest]

/-- FINALIZE: one permutation for the window that the padding of BUF fills, and one for the block read. -/
theorem finalize_permutations {s : State} {k : Nat} (hin : s.payload = []) (hph : s.phase = .accepting)
    (hlen : (paddedMessage hardware s.buf k).length = hardware.bb) :
    permutations hardware .finalize s = 2 ∧
      ∃ t, exec .finalize s = .next t ∧
        t.lanes = permutation hardware (permutation hardware
          (xorWindow hardware s.lanes (paddedMessage hardware s.buf k))) := by
  have he : errorOf hardware .finalize s = .noError :=
    errorOf_eq_noError_iff.2 ⟨admits_noPayload hin, by simp [extraCheck, hph]⟩
  have hone : IsWindows hardware [paddedMessage hardware s.buf k] (paddedMessage hardware s.buf k) :=
    ⟨by simpa using hlen, List.append_nil _⟩
  have hk : k < hardware.bb := by
    rw [paddedMessage_length] at hlen
    omega
  have hfin : (finBuilder hardware s.lanes s.buf).1 =
      permutation hardware (permutation hardware (xorWindow hardware s.lanes (paddedMessage hardware s.buf k))) := by
    rw [finBuilder, absorbPad_eq_absorbEach hone hk, squeeze32_of_r256 rfl, absorbEach, List.foldl_cons, List.foldl_nil]
  refine ⟨?_, _, exec_completes he, hfin⟩
  have hcount : windowCount hardware s.buf.length = 1 := by rw [windowCount_eq, ← hone.length_padded hk]; rfl
  rw [permutations_of_errorFree he, loopPermutations, hcount]
  rfl

/-- Settles O31: command by command; a window has the 32 bytes of this hardware. -/
theorem permutationCounts : Obligations.PermutationCounts := by
  refine ⟨fun s hin => ?_, fun s Ws k hk h => ?_, fun s Ws h => ?_, fun s n hin hn => squeeze_permutations hin hn,
    fun s Ws rest hph hbuf hrest whole h hcut => ?_, fun s k hin hph hlen => finalize_permutations hin hph hlen,
    fun s i hi => ?_, fun i s he => ?_⟩
  · have he := permute_errorFree (p := hardware) hin
    exact ⟨permutations_of_errorFree he, _, exec_completes he, rfl⟩
  · obtain ⟨hpad, hpadExec⟩ := absorbPad_permutations hk h
    obtain ⟨hhash, hhashExec⟩ := hash_permutations hk h
    exact ⟨h.length_padded hk, hpad, hhash, hpadExec, hhashExec⟩
  · exact ⟨(h.length_div (bb_pos hardware)).symm, absorbBlk_permutations h⟩
  · refine ⟨?_, update_permutations hph h hrest hcut⟩
    rw [← hbuf, ← List.length_append, ← hcut, List.length_append]
    exact (h.length_div hrest).symm
  · have hloop : loopPermutations hardware i s = 0 := by
      simp only [List.mem_cons, List.not_mem_nil, or_false] at hi
      rcases hi with rfl | rfl | rfl | rfl <;> rfl
    exact permutations_of_no_loop hloop
  · refine ⟨permutations_of_error he, _, exec_eq_runWith i s, ?_⟩
    rw [runWith_raises he, State.raise_lanes]

end Machine
end Sys2Proof
end

section
/-! The sponge (41_sponge.md): a window's bytes in the lanes (R132, R135), the padded message (R130, R131), the loops of
R133 to R135 cut in two (R138), the digest of a short message (R163, R178), and ABSORB_PAD, ABSORB_BLK and SQUEEZE (R140
to R142). -/

namespace Sys2Proof
namespace Machine

/-! ## A window in the rate lanes -/

/-- Inside its sequence `byteAt` is the indexed byte, so the 0 of log 12 is not seen. -/
theorem getElem?_eq_some_byteAt {W : List Byte} {q : Nat} (h : q < W.length) : W[q]? = some (byteAt W q) := by
  simp [byteAt, h]

/-- Byte `b` of a rate lane, counted from the top, takes byte `4j + b` of the window (R132). -/
theorem get_xorWindow_byte (p : Params) (S : Lanes) (W : List Byte) {j : Fin 16} {b : Nat} (hj : j.val < p.rl)
    (hb : b < 4) : ((xorWindow p S W).get j).extractLsb' (24 - 8 * b) 8 =
      (S.get j).extractLsb' (24 - 8 * b) 8 ^^^ byteAt W (4 * j.val + b) := by
  rw [get_xorWindow, if_pos hj, BitVec.extractLsb'_xor, be32_byte _ _ _ _ hb]
  have hcases : b = 0 ∨ b = 1 ∨ b = 2 ∨ b = 3 := by omega
  rcases hcases with rfl | rfl | rfl | rfl <;> rfl

theorem get_xorWindow_capacity (p : Params) (S : Lanes) (W : List Byte) {j : Fin 16} (hj : p.rl ≤ j.val) :
    (xorWindow p S W).get j = S.get j := by
  rw [get_xorWindow, if_neg (Nat.not_lt.2 hj)]

/-- A window of `BB` bytes fills the rate lanes, four bytes each (R8). -/
theorem bb_eq_four_mul_rl (p : Params) : p.bb = 4 * p.rl := by
  rcases bb_cases p with ⟨-, hbb, hrl⟩ | ⟨-, hbb, hrl⟩ <;> omega

theorem rl_pos (p : Params) : 0 < p.rl := by
  rcases bb_cases p with ⟨-, -, hrl⟩ | ⟨-, -, hrl⟩ <;> omega

/-- Settles O48: a window has a byte for every byte of the rate lanes. -/
theorem xorWindowPlacesBytesBigEndian : Obligations.XorWindowPlacesBytesBigEndian := by
  refine fun p S W hW => ⟨fun j b hj hb => ?_, fun j => get_xorWindow_capacity p S W⟩
  have hinside : 4 * j.val + b < W.length := by
    rw [hW, bb_eq_four_mul_rl]
    omega
  rw [get_xorWindow_byte p S W hj hb, getElem?_eq_some_byteAt hinside, Option.map_some]

/-! ## A squeezed block -/

/-- The lanes that a block reads are the rate lanes. -/
theorem lt_rl_of_mem_take {p : Params} {j : Fin 16} (h : j ∈ laneNumbers.take p.rl) : j.val < p.rl := by
  rcases bb_cases p with ⟨-, -, hrl⟩ | ⟨-, -, hrl⟩
  · have hfirst : ∀ j ∈ laneNumbers.take 8, j.val < 8 := by decide
    rw [hrl] at h ⊢
    exact hfirst j h
  · rw [hrl]
    exact j.isLt

theorem rateBlock_getElem? (p : Params) (S : Lanes) {j : Fin 16} {k : Nat} (hj : j.val < p.rl) (hk : k < 4) :
    (rateBlock p S)[4 * j.val + k]? = some ((S.get j).extractLsb' (8 * k) 8) := by
  rw [Nat.mul_comm, rateBlock, flatMap_getElem?_of_const _ _ 4 (fun _ => le4_length _) _ hk,
    List.getElem?_take_of_lt hj, laneNumbers_getElem?, Option.bind_some, le4_getElem? _ hk]

/-- Settles O49: a block is built from the rate lanes alone, so equal rate lanes give equal blocks. -/
theorem blockReadsRateLanes : Obligations.BlockReadsRateLanes := by
  refine fun p S => ⟨rateBlock_length p S, fun j k => rateBlock_getElem? p S, fun T hT => ?_⟩
  exact List.flatMap_congr fun j hj => congrArg le4 (hT j (lt_rl_of_mem_take hj))

/-! ## The padded message -/

/-- Settles O46: both bounds are about the whole windows of the message and the one behind them. -/
theorem windowCountIsFloorPlusOne : Obligations.WindowCountIsFloorPlusOne := by
  intro p M nw
  have hnw : nw = M.length / p.bb + 1 := windowCount_eq p M.length
  clear_value nw
  rw [bits_eq]
  rcases bb_cases p with ⟨-, hbb, -⟩ | ⟨-, hbb, -⟩ <;> rw [hbb] at hnw ⊢ <;>
    exact ⟨by omega, by omega, hnw, by omega, by omega, by omega⟩

/-- The only padded window of a message shorter than a window: the message, the delimiter, and zeros up to `BB` bytes
(R130). -/
theorem paddedWindow_zero_of_short {p : Params} {M : List Byte} (h : M.length < p.bb) :
    paddedWindow p M 0 = paddedMessage p M (p.bb - 1 - M.length) := by
  have hlen : (paddedMessage p M (p.bb - 1 - M.length)).length = p.bb := by
    rw [paddedMessage_length]
    omega
  calc paddedWindow p M 0
      = slice (paddedMessage p M (p.bb - 1 - M.length)) 0 p.bb := by
        rw [slice_eq_map_byteAt (by omega), paddedWindow, Nat.zero_mul]
        simp only [← padByte_eq_byteAt]
    _ = paddedMessage p M (p.bb - 1 - M.length) := by
        rw [slice, List.drop_zero, List.take_of_length_le hlen.le]

/-- The last padded window holds what stands behind the whole windows of the message, padded (R131). -/
theorem paddedWindow_last (p : Params) (M : List Byte) :
    paddedWindow p M (windowCount p M.length - 1) =
      paddedMessage p (M.drop (M.length / p.bb * p.bb)) (p.bb - 1 - M.length % p.bb) := by
  have htail : (M.drop (M.length / p.bb * p.bb)).length = M.length % p.bb := by
    rw [List.length_drop, Nat.mod_eq_sub_div_mul]
  have hwhole : (M.take (M.length / p.bb * p.bb)).length = M.length / p.bb * p.bb := by
    rw [List.length_take, Nat.min_eq_left (Nat.div_mul_le_self _ _)]
  have hcut := paddedWindow_append_right p (M.drop (M.length / p.bb * p.bb)) 0 hwhole
  rw [List.take_append_drop] at hcut
  have hshort : (M.drop (M.length / p.bb * p.bb)).length < p.bb := htail ▸ Nat.mod_lt _ (bb_pos p)
  rw [windowCount_eq, Nat.add_sub_cancel, ← htail, ← paddedWindow_zero_of_short hshort, ← hcut, Nat.add_zero]

theorem byteAt_delim_zeros (d : Byte) (k q : Nat) : byteAt (d :: List.replicate k 0) q = if q = 0 then d else 0 := by
  rcases q with _ | q
  · rfl
  · rw [byteAt, List.getD_cons_succ, List.getD_eq_getElem?_getD, List.getElem?_getD_replicate_default_eq,
      if_neg (Nat.succ_ne_zero q)]

theorem be32_delim_zeros (d : Byte) : be32 d 0 0 0 = d.zeroExtend 32 <<< 24 := by
  simp [be32]

/-- XORing a window of padding alone writes the delimiter to the top byte of lane 0, and nothing else (R137). -/
theorem get_xorWindow_padding (p : Params) (S : Lanes) (d : Byte) (k : Nat) (j : Fin 16) :
    (xorWindow p S (d :: List.replicate k 0)).get j =
      if j = 0 then S.get j ^^^ d.zeroExtend 32 <<< 24 else S.get j := by
  rw [get_xorWindow]
  simp only [byteAt_delim_zeros]
  by_cases hj : j = 0
  · subst hj
    rw [if_pos (show (0 : Fin 16).val < p.rl from rl_pos p), if_pos rfl]
    exact congrArg _ (be32_delim_zeros d)
  · have hpos : j.val ≠ 0 := fun h => hj (Fin.ext h)
    simpa [hj, hpos] using fun _ => be32_zero

/-- Settles O47: at both boundaries, what the last window holds behind the whole ones. -/
theorem paddingAtBlockBoundaries : Obligations.PaddingAtBlockBoundaries := by
  refine fun p M => ⟨fun hM => ⟨?_, fun S j => get_xorWindow_padding p S p.delim _ j⟩, fun hM => ?_⟩
  · rw [paddedWindow_last, hM, Nat.div_mul_cancel (Nat.dvd_of_mod_eq_zero hM), List.drop_length]
    rfl
  · rw [paddedWindow_last, hM, Nat.sub_self]
    rfl

/-! ## The loops cut in two -/

/-- Settles O50: the loop of R133 over `A ++ B`, cut after the whole windows of `A`. -/
theorem absorbBlkThenAbsorbPad : Obligations.AbsorbBlkThenAbsorbPad := fun p S _ B hA => absorbPad_append p S B hA

/-- Absorbing `n` whole windows and then the rest, by induction on the windows. -/
theorem absorbBlk_append (p : Params) (S : Lanes) {A : List Byte} (B : List Byte) {n : Nat}
    (hA : A.length = n * p.bb) : absorbBlk p S (A ++ B) = absorbBlk p (absorbBlk p S A) B := by
  induction n generalizing S A with
  | zero =>
    obtain rfl : A = [] := List.length_eq_zero_iff.1 (by omega)
    rw [List.nil_append, absorbBlk_nil]
  | succ n ih =>
    rw [Nat.succ_mul] at hA
    have hfirst : (A.take p.bb).length = p.bb := by rw [List.length_take]; omega
    have hrest : (A.drop p.bb).length = n * p.bb := by rw [List.length_drop]; omega
    rw [← List.take_append_drop p.bb A, List.append_assoc, absorbBlk_window_append p S _ hfirst, ih _ hrest,
      absorbBlk_window_append p S _ hfirst]

theorem absorbBlk_window (p : Params) (S : Lanes) {W : List Byte} (hW : W.length = p.bb) :
    absorbBlk p S W = absorbWindow p S W := by
  simpa using absorbBlk_window_append p S [] hW

/-- Settles O51: the loop runs zero times, once, and over `A` before `B`. -/
theorem absorbBlkComposes : Obligations.AbsorbBlkComposes := by
  refine ⟨absorbBlk_nil, fun p S W hW => absorbBlk_window p S hW, fun p S A B hA _ => ?_⟩
  exact absorbBlk_append p S B (Nat.div_mul_cancel (Nat.dvd_of_mod_eq_zero hA)).symm

/-- Law 3 of R138: the second part of the output starts from the lanes that the first part leaves. -/
theorem squeeze_add (p : Params) (S : Lanes) {m : Nat} (n : Nat) (hm : m % p.bb = 0) :
    squeeze p S (m + n) =
      ((squeeze p (squeeze p S m).1 n).1, (squeeze p S m).2 ++ (squeeze p (squeeze p S m).1 n).2) := by
  simp only [squeeze_eq]
  rw [Nat.add_div_of_dvd_right (Nat.dvd_of_mod_eq_zero hm), List.range_add, List.flatMap_append, List.flatMap_map]
  simp only [← Function.iterate_add_apply, Nat.add_comm (m / p.bb)]

/-- Settles O52: the closed form of the loop at 0 and at 1 block, and law 3. -/
theorem squeezeComposes : Obligations.SqueezeComposes := by
  refine ⟨fun p S => ?_, fun p S => ?_, fun p S m n hm _ => squeeze_add p S n hm⟩
  · rw [squeeze_eq, Nat.zero_div]
    rfl
  · rw [squeeze_eq, Nat.div_self (bb_pos p)]
    simp

/-! ## The digest of a short message -/

/-- The digest bytes are the first 32 of one block, at either rate (R161). -/
theorem squeeze32_eq (p : Params) (S : Lanes) : squeeze32 p S = (permutation p S, (rateBlock p S).take 32) := by
  have hblocks : (32 + (p.bb - 1)) / p.bb = 1 := by
    rcases bb_cases p with ⟨-, hbb, -⟩ | ⟨-, hbb, -⟩ <;> rw [hbb]
  simp [squeeze32, Config.digestBytes, hblocks, squeeze_eq, Nat.div_self (bb_pos p)]

theorem windowCount_of_short {p : Params} {len : Nat} (h : len < p.bb) : windowCount p len = 1 := by
  rw [windowCount_eq, Nat.div_eq_of_lt h]

/-- A message shorter than a window is absorbed with padding as one window (R133). -/
theorem absorbPad_of_short {p : Params} (S : Lanes) {M : List Byte} (h : M.length < p.bb) :
    absorbPad p S M = absorbWindow p S (paddedMessage p M (p.bb - 1 - M.length)) := by
  rw [absorbPad, windowCount_of_short h, List.range_one, List.foldl_cons, List.foldl_nil, paddedWindow_zero_of_short h]

/-- Settles O57: one window is absorbed, and the digest is one block of what that leaves. -/
theorem finalizeAbsorbsOneWindow : Obligations.FinalizeAbsorbsOneWindow := by
  intro p S buf h A
  have habsorb : absorbPad p S buf = A := absorbPad_of_short S h
  have hfin : finBuilder p S buf = (permutation p A, (rateBlock p A).take 32) := by
    rw [finBuilder, habsorb, squeeze32_eq]
  exact ⟨windowCount_of_short h, habsorb, congrArg Prod.fst hfin, congrArg Prod.snd hfin⟩

/-- The digest reads lanes 0 to 7, rate lanes at either rate (R161). -/
theorem take_rateBlock (p : Params) (S : Lanes) :
    (rateBlock p S).take 32 = (laneNumbers.take 8).flatMap fun j => le4 (S.get j) := by
  unfold rateBlock
  rcases bb_cases p with ⟨-, -, hrl⟩ | ⟨-, -, hrl⟩ <;> rw [hrl] <;> rfl

/-- The padding of a message shorter than 32 bytes leaves lanes 8 to 15 as they are, whether or not they are rate
lanes: their bytes of the padded message are zeros. -/
theorem get_xorWindow_short (p : Params) (S : Lanes) {M : List Byte} (h : M.length < 32) (k : Nat) (j : Fin 16) :
    (xorWindow p S (paddedMessage p M k)).get j =
      S.get j ^^^ be32 (padByte p M (4 * j.val)) (padByte p M (4 * j.val + 1)) (padByte p M (4 * j.val + 2))
        (padByte p M (4 * j.val + 3)) := by
  rw [get_xorWindow]
  simp only [← padByte_eq_byteAt]
  split
  · rfl
  next hj =>
    have hlane : 8 ≤ j.val := by
      rcases bb_cases p with ⟨-, -, hrl⟩ | ⟨-, -, hrl⟩ <;> omega
    have hzero (b : Nat) : padByte p M (4 * j.val + b) = 0 := by
      rw [padByte, if_neg (by omega), if_neg (by omega)]
    have hfirst : padByte p M (4 * j.val) = 0 := hzero 0
    rw [hfirst, hzero, hzero, hzero, be32_zero]
    exact BitVec.xor_zero.symm

/-- Settles O56: at both rates one window is absorbed, with the same bytes in the same lanes, and the digest reads
lanes 0 to 7. -/
theorem shortDigestIgnoresRate : Obligations.ShortDigestIgnoresRate := by
  intro p M h
  have hone (r : Rate) : M.length < ({ p with rate := r } : Params).bb := by
    rcases bb_cases { p with rate := r } with ⟨-, hbb, -⟩ | ⟨-, hbb, -⟩ <;> omega
  have habsorb : absorbPad { p with rate := .r256 } zeroLanes M = absorbPad { p with rate := .r512 } zeroLanes M := by
    rw [absorbPad_of_short _ (hone .r256), absorbPad_of_short _ (hone .r512)]
    refine congrArg (permutation p) (lanes_ext fun j => ?_)
    rw [get_xorWindow_short _ _ h, get_xorWindow_short _ _ h]
    rfl
  simp only [digest, squeeze32_eq, take_rateBlock, habsorb]

/-! ## ABSORB_PAD, ABSORB_BLK and SQUEEZE -/

theorem absorbBlk_errorFree {p : Params} {s : State} (hfits : fits p s.payload.length = true)
    (h : s.payload.length % p.bb = 0) : errorOf p .absorbBlk s = .noError :=
  errorOf_eq_noError_iff.2 ⟨hfits, if_pos h⟩

theorem squeeze_errorFree {p : Params} {n : Nat} {s : State} (hin : s.payload = []) (hn : n % p.bb = 0) :
    errorOf p (.squeeze n) s = .noError :=
  errorOf_eq_noError_iff.2 ⟨admits_noPayload hin, if_pos hn⟩

/-- Settles O13: ABSORB_PAD raises no error, and what it writes is the lanes. -/
theorem absorbPadResult : Obligations.AbsorbPadResult :=
  fun _ => ⟨_, exec_completes (errorOf_eq_noError_iff.2 ⟨rfl, rfl⟩), (complete_answered _ _).of_same rfl rfl, rfl,
    ⟨rfl, rfl, rfl⟩, rfl⟩

/-- Settles O14: ABSORB_BLK raises no error on whole blocks, and what it writes is the lanes. -/
theorem absorbBlkResult : Obligations.AbsorbBlkResult :=
  fun _ h => ⟨_, exec_completes (absorbBlk_errorFree rfl h), (complete_answered _ _).of_same rfl rfl, rfl,
    ⟨rfl, rfl, rfl⟩, rfl⟩

/-- Byte `k` of lane `j` of block `i`, which is read after `i` permutations (R135). -/
theorem squeeze_getElem? (p : Params) (S : Lanes) {n i k : Nat} {j : Fin 16} (hi : i < n / p.bb) (hj : j.val < p.rl)
    (hk : k < 4) : (squeeze p S n).2[i * p.bb + 4 * j.val + k]? =
      some ((((permutation p)^[i] S).get j).extractLsb' (8 * k) 8) := by
  have hinside : 4 * j.val + k < p.bb := by
    rw [bb_eq_four_mul_rl]
    omega
  rw [squeeze_eq, Nat.add_assoc, flatMap_getElem?_of_const _ _ p.bb (fun _ => rateBlock_length p _) _ hinside,
    List.getElem?_range hi, Option.bind_some, rateBlock_getElem? p _ hj hk]

/-- Settles O15: SQUEEZE completes, and its loop gives the data and the lanes. -/
theorem squeezeResult : Obligations.SqueezeResult := by
  intro s n hin hn
  refine ⟨_, _, exec_completes (squeeze_errorFree hin hn), (complete_answered _ _).of_same rfl rfl,
    squeeze_length hardware s.lanes hn, fun i j k => squeeze_getElem? hardware s.lanes, ?_, ⟨rfl, rfl, rfl⟩, rfl⟩
  exact congrArg Prod.fst (squeeze_eq hardware s.lanes n)

/-- The frame of a SQUEEZE of whole blocks: one response with the bytes, and the lanes left behind. -/
theorem step_squeeze {s : State} {n : Nat} {held : List Input}
    (hin : s.inbox = .frame (frameOf (.squeeze n) []) :: held) (hwf : n < 65536) (hn : n % 32 = 0) :
    ∃ t r, step s = .next t ∧ t.inbox = held ∧ t.responses = s.responses ++ [r] ∧
      r.data = (squeeze hardware s.lanes n).2 ∧ t.lanes = (squeeze hardware s.lanes n).1 :=
  ⟨_, _, step_frameOf_completes hin (decide_eq_true hwf) (squeeze_errorFree rfl hn), rfl, rfl, rfl, rfl⟩

/-- Settles O53: the two commands squeeze in two parts what the one squeezes at once. -/
theorem squeezeInTwoCommands : Obligations.SqueezeInTwoCommands := by
  intro s m n held hwf hm hn hin
  obtain ⟨mid, r1, hstep1, hheld, hresp1, hdata1, hlanes1⟩ := step_squeeze hin (by omega) hm
  obtain ⟨t, r2, hstep2, -, hresp2, hdata2, hlanes2⟩ := step_squeeze hheld (by omega) hn
  obtain ⟨u, r, hstep, -, hresp, hdata, hlanes⟩ :=
    step_squeeze (s := { s with inbox := .frame (frameOf (.squeeze (m + n)) []) :: held }) rfl hwf (by omega)
  have hsplit := squeeze_add hardware s.lanes n hm
  refine ⟨t, u, r1, r2, r, ?_, ?_, hstep, hresp, ?_, ?_⟩
  · rw [run_succ hstep1, run_succ hstep2]
    rfl
  · rw [hresp2, hresp1, List.append_assoc]
    rfl
  · rw [hdata1, hdata2, hdata, hsplit, hlanes1]
  · rw [hlanes2, hlanes, hsplit, hlanes1]

end Machine
end Sys2Proof
end

section
/-! The digest and HASH (42_hash_oneshot.md): the digest as the first bytes of one block (R160, R161), and HASH
(R162). -/

namespace Sys2Proof
namespace Machine

/-- Lanes 0 to 7, which hold the digest, are rate lanes at either rate (R8). -/
theorem eight_le_rl (p : Params) : 8 ≤ p.rl := by
  rcases bb_cases p with ⟨-, -, hrl⟩ | ⟨-, -, hrl⟩ <;> omega

theorem digest_eq_take_rateBlock (p : Params) (M : List Byte) :
    digest p M = (rateBlock p (absorbPad p zeroLanes M)).take 32 := by
  rw [digest, squeeze32_eq]

/-- Settles O55: byte `4j + k` of the digest is that byte of the block read from the absorbed state. -/
theorem digestIsFirstEightLanes : Obligations.DigestIsFirstEightLanes := by
  refine fun p M => ⟨squeeze32_length p _, fun j k hj hk => ?_⟩
  have hrate : j.val < p.rl := hj.trans_le (eight_le_rl p)
  rw [digest_eq_take_rateBlock, List.getElem?_take_of_lt (by omega), rateBlock_getElem? p _ hrate hk]

/-- Settles O16: HASH with OUTLEN 32 raises no error, and it writes nothing before it answers the digest. -/
theorem hashResult : Obligations.HashResult :=
  fun _ => ⟨_, exec_completes (errorOf_eq_noError_iff.2 ⟨rfl, rfl⟩), complete_answered _ _, rfl, ⟨rfl, rfl, rfl⟩, rfl⟩

end Machine
end Sys2Proof
end

section
/-! The builder (43_builder.md): what INIT, UPDATE and FINALIZE leave and answer (R172 to R177), the message that a
session stands for (R31), the builder after FINALIZE (R179), and the equivalence law (R171). -/

namespace Sys2Proof
namespace Machine

/-! ## INIT, UPDATE and FINALIZE -/

theorem init_errorFree {p : Params} {s : State} (hin : s.payload = []) : errorOf p .init s = .noError :=
  errorOf_eq_noError_iff.2 ⟨admits_noPayload hin, rfl⟩

theorem update_errorFree {p : Params} {s : State} (hfits : fits p s.payload.length = true)
    (hph : s.phase = .accepting) : errorOf p .update s = .noError :=
  errorOf_eq_noError_iff.2 ⟨hfits, by simp [extraCheck, hph]⟩

theorem finalize_errorFree {p : Params} {s : State} (hin : s.payload = []) (hph : s.phase = .accepting) :
    errorOf p .finalize s = .noError :=
  errorOf_eq_noError_iff.2 ⟨admits_noPayload hin, by simp [extraCheck, hph]⟩

/-- Less than a window is absorbed later: Upd keeps it pending (R173). -/
theorem updBuilder_of_short {p : Params} {buf c : List Byte} (S : Lanes) (h : (buf ++ c).length < p.bb) :
    updBuilder p S buf c = (S, buf ++ c) := by
  simp only [updBuilder, Nat.div_eq_of_lt h, Nat.zero_mul, List.take_zero, List.drop_zero, absorbBlk_nil]

/-- Settles O17: INIT without a payload raises no error, and it writes a new session. -/
theorem initResult : Obligations.InitResult :=
  fun _ hin => ⟨_, exec_completes (init_errorFree hin), (complete_answered _ _).of_same rfl rfl, get_zeroLanes, rfl,
    rfl, rfl, rfl⟩

/-- Settles O18: UPDATE of an accepting builder raises no error, and it writes what Upd gives. -/
theorem updateResult : Obligations.UpdateResult := by
  intro s hph
  refine ⟨_, exec_completes (update_errorFree rfl hph), (complete_answered _ _).of_same rfl rfl, rfl, rfl,
    updBuilder_buf_length hardware s.lanes s.buf s.payload, rfl, fun hshort => ?_, hph, rfl⟩
  have hkept := updBuilder_of_short (p := hardware) s.lanes hshort
  exact ⟨congrArg Prod.fst hkept, congrArg Prod.snd hkept⟩

/-- Settles O19: FINALIZE of an accepting builder raises no error, and it closes the session with what Fin gives. -/
theorem finalizeResult : Obligations.FinalizeResult :=
  fun _ hin hph => ⟨_, exec_completes (finalize_errorFree hin hph), (complete_answered _ _).of_same rfl rfl, rfl, rfl,
    rfl, rfl, rfl⟩

/-! ## The message of the session -/

/-- The message after the command `i` with payload `c`, when it raises no error (R31, item 3). -/
def messageAfterCommand (i : Instr) (c A : List Byte) : List Byte :=
  match i with
  | .init => []
  | .update => A ++ c
  | _ => A

theorem messageAfter_of_idle {s : State} (A : List Byte) (hin : s.inbox = []) : messageAfter s A = A := by
  simp only [messageAfter, hin]

theorem messageAfter_of_reset {s : State} {x : Input} {held : List Input} (A : List Byte)
    (hx : x = .reset ∨ ∃ f, x = .frameCutByReset f) (hin : s.inbox = x :: held) : messageAfter s A = [] := by
  rcases hx with rfl | ⟨f, rfl⟩ <;> simp only [messageAfter, hin]

theorem messageAfter_of_illegal {s : State} {f : Frame} {held : List Input} {e : Illegal} (A : List Byte)
    (hin : s.inbox = .frame f :: held) (hdec : decode f.cw = .error e) : messageAfter s A = A := by
  simp only [messageAfter, hin, hdec]

theorem messageAfter_of_error {s : State} {f : Frame} {held : List Input} {i : Instr} (A : List Byte)
    (hin : s.inbox = .frame f :: held) (hdec : decode f.cw = .ok i)
    (he : errorOf hardware i (s.accept f held) ≠ .noError) : messageAfter s A = A := by
  simp only [messageAfter, hin, hdec]
  exact if_pos he

theorem messageAfter_of_errorFree {s : State} {f : Frame} {held : List Input} {i : Instr} (A : List Byte)
    (hin : s.inbox = .frame f :: held) (hdec : decode f.cw = .ok i)
    (he : errorOf hardware i (s.accept f held) = .noError) :
    messageAfter s A = messageAfterCommand i f.payload A := by
  simp only [messageAfter, hin, hdec]
  rw [if_neg (not_not.2 he)]
  cases i <;> rfl

/-- What a state represents is about the builder only. -/
theorem Represents.of_same {s t : State} {A : List Byte} (hA : Represents s A) (h : SameBuilder s t) :
    Represents t A where
  tailWithin := by rw [h.plen]; exact hA.tailWithin
  tail := by rw [h.buf, h.plen]; exact hA.tail
  wholeWindows := by rw [h.phase, h.plen]; exact hA.wholeWindows

/-- With nothing pending, a fresh session represents the empty message. -/
theorem represents_nil {s : State} (hbuf : s.buf = []) (hplen : s.plen = 0) : Represents s [] where
  tailWithin := by rw [hplen]; exact Nat.zero_le _
  tail := by simp [hbuf]
  wholeWindows := by simp

/-- A closed session keeps its message, all of it absorbed; that it was whole windows is not claimed (log 15). -/
theorem closed_represents (s : State) (S : Lanes) (A : List Byte) : Represents (s.closed S) A where
  tailWithin := Nat.zero_le _
  tail := by simp
  wholeWindows := nofun

/-- UPDATE makes the message longer by its payload. `BUF ++ In` is what follows the absorbed part in the longer message,
and Upd absorbs whole windows of it. -/
theorem updated_represents {s : State} {A : List Byte} (hph : s.phase = .accepting) (hlen : s.buf.length = s.plen)
    (hA : Represents s A) :
    Represents (s.updated (updBuilder hardware s.lanes s.buf s.payload)) (A ++ s.payload) := by
  have hwithin := hA.tailWithin
  have habsorbed := hA.wholeWindows hph
  have hplen := updBuilder_buf_length hardware s.lanes s.buf s.payload
  have hpending : s.buf ++ s.payload = (A ++ s.payload).drop (A.length - s.plen) := by
    rw [List.drop_append_of_le_length (Nat.sub_le _ _), ← hA.tail]
  have hcut : (A ++ s.payload).length - (updBuilder hardware s.lanes s.buf s.payload).2.length =
      A.length - s.plen + (s.buf ++ s.payload).length / hardware.bb * hardware.bb := by
    rw [hplen, List.length_append, List.length_append, hlen, hardware_bb]
    omega
  constructor
  · rw [State.updated_plen, hplen, List.length_append, List.length_append, hlen, hardware_bb]
    omega
  · rw [State.updated_plen, State.updated_buf, hcut, ← List.drop_drop, ← hpending]
    rfl
  · intro _
    rw [State.updated_plen, hcut, Nat.add_mul_mod_self_right]
    exact habsorbed

theorem written_represents {i : Instr} {s : State} {A : List Byte} (hlen : s.buf.length = s.plen)
    (hA : Represents s A) (he : errorOf hardware i s = .noError) :
    Represents (written hardware i s) (messageAfterCommand i s.payload A) := by
  cases i with
  | init => exact represents_nil rfl rfl
  | update => exact updated_represents (accepting_of_update_errorFree he) hlen hA
  | finalize => exact closed_represents s _ A
  | _ => exact hA.of_same (written_sameBuilder rfl)

/-- Settles O35: by what a step can do; a command without an error writes a state that represents the message after
it, and everything else but a reset leaves the builder as it was. -/
theorem stepKeepsRepresentedMessage : Obligations.StepKeepsRepresentedMessage := by
  intro s t A hs hA hstep
  rw [step_eq_stepWith] at hstep
  rcases stepWith_cases hardware s with
    ⟨hin, hst⟩ | ⟨f, held, i, hin, hdec, hst⟩ | ⟨f, held, _, hin, hdec, hst⟩ | ⟨_, held, hx, hin, hst⟩ <;>
    cases hst.symm.trans hstep
  · rwa [messageAfter_of_idle A hin]
  · have haccept : Represents (s.accept f held) A := hA.of_same ⟨rfl, rfl, rfl⟩
    by_cases he : errorOf hardware i (s.accept f held) = .noError
    · rw [messageAfter_of_errorFree A hin hdec he, runWith_completes he]
      exact (written_represents (s := s.accept f held) hs.bufLength haccept he).of_same ⟨rfl, rfl, rfl⟩
    · rw [messageAfter_of_error A hin hdec he]
      exact haccept.of_same (raised_of_errorOf he).builder
  · rw [messageAfter_of_illegal A hin hdec]
    exact hA.of_same ⟨rfl, rfl, rfl⟩
  · rw [messageAfter_of_reset A hx hin]
    exact represents_nil rfl rfl

/-! ## After FINALIZE -/

theorem update_error_of_finalized {s : State} (hph : s.phase = .finalized) :
    errorOf hardware .update s = .updAfterFin := by
  simp [errorOf, payloadClass, PayloadClass.admits, extraCheck, hph]

theorem finalize_error_of_finalized {s : State} (hin : s.payload = []) (hph : s.phase = .finalized) :
    errorOf hardware .finalize s = .finAfterFin := by
  simp [errorOf, payloadClass, PayloadClass.admits, extraCheck, hin, hph]

/-- No frame but INIT opens a closed session (R179). -/
theorem step_keeps_finalized {s t : State} {f : Frame} {held : List Input} (hin : s.inbox = .frame f :: held)
    (hnot : decode f.cw ≠ .ok .init) (hph : s.phase = .finalized) (hstep : step s = .next t) :
    t.phase = .finalized := by
  rcases hdec : decode f.cw with e | i
  · cases (step_illegal hin hdec).symm.trans hstep
    exact hph
  · obtain ⟨-, -, hphase, -⟩ := onlyNamedCommandsWriteState i _ t ((step_frame hin hdec).symm.trans hstep)
    by_contra hopen
    rcases hphase (by rwa [State.accept_phase, hph]) with ⟨rfl, -⟩ | ⟨-, hclosed⟩
    · exact hnot hdec
    · exact hopen hclosed

theorem run_keeps_finalized {s : State} {fs : List Frame} (hph : s.phase = .finalized) (hin : s.inbox = fs.map .frame)
    (hnot : ∀ f ∈ fs, decode f.cw ≠ .ok .init) : ∃ t, core.run fs.length s = .next t ∧ t.phase = .finalized := by
  induction fs generalizing s with
  | nil => exact ⟨s, rfl, hph⟩
  | cons f fs ih =>
    obtain ⟨mid, -, hstep, hheld, -, -⟩ := step_consumes hin
    obtain ⟨hf, hfs⟩ := List.forall_mem_cons.1 hnot
    obtain ⟨t, hrun, hclosed⟩ := ih (step_keeps_finalized hin hf hph hstep) hheld hfs
    exact ⟨t, (run_succ hstep fs.length).trans hrun, hclosed⟩

/-- A command that raises the error `e` leaves a `Raised` state. -/
theorem exec_raises {i : Instr} {s : State} {e : ErrCode} (he : errorOf hardware i s = e) (hne : e ≠ .noError) :
    ∃ u, exec i s = .next u ∧ Raised s u e := by
  subst he
  exact ⟨_, exec_eq_runWith i s, raised_of_errorOf hne⟩

/-- Settles O30: the frames leave the session closed, and there UPDATE and FINALIZE raise their errors. -/
theorem finalizedUntilInit : Obligations.FinalizedUntilInit := by
  intro s fs hph hin hnot
  obtain ⟨t, hrun, hclosed⟩ := run_keeps_finalized hph hin hnot
  exact ⟨t, hrun, hclosed, fun _ => exec_raises (update_error_of_finalized hclosed) nofun,
    exec_raises (finalize_error_of_finalized rfl hclosed) nofun⟩

/-! ## The equivalence law -/

/-- One step of the machine with any parameter set, and then the rest of a run. -/
theorem coreWith_run_succ {p : Params} {s t : State} (h : stepWith p s = .next t) (k : Nat) :
    (coreWith p).run (k + 1) s = (coreWith p).run k t := by
  have hcore : (coreWith p).step s = .next t := h
  simp only [Host.Core.run, hcore]

theorem stepWith_frame {p : Params} {s : State} {f : Frame} {held : List Input} {i : Instr}
    (hin : s.inbox = .frame f :: held) (hdec : decode f.cw = .ok i) :
    stepWith p s = .next (runWith p i (s.accept f held)) := by
  simp [stepWith, takeInput, executeFrame, hin, hdec]

theorem stepWith_illegal {p : Params} {s : State} {f : Frame} {held : List Input} {e : Illegal}
    (hin : s.inbox = .frame f :: held) (hdec : decode f.cw = .error e) :
    stepWith p s = .next ((s.accept f held).raise .illegal) := by
  simp [stepWith, takeInput, executeFrame, hin, hdec]

/-- The frame of a command without an error: what it writes, and then its answer. -/
theorem stepWith_completes {p : Params} {s : State} {f : Frame} {held : List Input} {i : Instr}
    (hin : s.inbox = .frame f :: held) (hdec : decode f.cw = .ok i)
    (he : errorOf p i (s.accept f held) = .noError) :
    stepWith p s = .next ((written p i (s.accept f held)).complete (answer p i (s.accept f held))) := by
  rw [stepWith_frame hin hdec, runWith_completes he]

/-- An accepting session with lanes `S` and pending bytes `buf`, and the inputs it has still to take. -/
structure InSession (s : State) (S : Lanes) (buf : List Byte) (held : List Input) : Prop where
  lanes : s.lanes = S
  buf : s.buf = buf
  accepting : s.phase = .accepting
  inbox : s.inbox = held

/-- INIT and a reset start a session with zero lanes and nothing pending (R170, R172, R230). -/
theorem stepWith_startsSession (p : Params) {s : State} {x : Input} {held : List Input} (hx : startsSession x = true)
    (hin : s.inbox = x :: held) : ∃ t, stepWith p s = .next t ∧ InSession t zeroLanes [] held := by
  cases x with
  | frame f =>
    obtain rfl : f = frameOf .init [] := eq_of_beq hx
    exact ⟨_, stepWith_completes hin (decode_encode rfl) (init_errorFree rfl), rfl, rfl, rfl, rfl⟩
  | reset | frameCutByReset _ =>
    exact ⟨s.assertReset held, by simp [stepWith, takeInput, hin], reset_lanes, rfl, rfl, rfl⟩

theorem isUpdate_iff {f : Frame} : isUpdate f = true ↔ decode f.cw = .ok .update := by
  unfold isUpdate
  split <;> simp [*]

/-- An UPDATE frame that fits feeds its payload to the session (R174). -/
theorem stepWith_update {p : Params} {s : State} {S : Lanes} {buf : List Byte} {f : Frame} {held : List Input}
    (hs : InSession s S buf (.frame f :: held)) (hf : isUpdate f = true) (hfits : fits p f.payload.length = true) :
    ∃ t, stepWith p s = .next t ∧
      InSession t (updBuilder p S buf f.payload).1 (updBuilder p S buf f.payload).2 held := by
  obtain ⟨rfl, rfl, hph, hin⟩ := hs
  exact ⟨_, stepWith_completes hin (isUpdate_iff.1 hf) (update_errorFree hfits hph), rfl, rfl, hph, rfl⟩

theorem mayWriteBuffer_of_not_mayWriteLanes {i : Instr} (h : mayWriteLanes i = false) : mayWriteBuffer i = false := by
  cases i with
  | init | update | finalize => cases h
  | _ => rfl

/-- A command that may not write a lane leaves the lanes and the builder, with an error or without. -/
theorem runWith_of_not_mayWriteLanes {p : Params} {i : Instr} {s : State} (h : mayWriteLanes i = false) :
    (runWith p i s).lanes = s.lanes ∧ SameBuilder s (runWith p i s) ∧ (runWith p i s).inbox = s.inbox := by
  by_cases he : errorOf p i s = .noError
  · rw [runWith_completes he]
    have hsame := written_sameBuilder (p := p) (s := s) (mayWriteBuffer_of_not_mayWriteLanes h)
    exact ⟨written_lanes_of_not_mayWriteLanes h, hsame.trans ⟨rfl, rfl, rfl⟩, written_inbox p i s⟩
  · have hraised := raised_of_errorOf he
    exact ⟨hraised.lanes, hraised.builder, hraised.answered.held⟩

/-- A frame that writes no lane leaves the session as it is (R235). -/
theorem stepWith_leavesSession (p : Params) {s : State} {S : Lanes} {buf : List Byte} {f : Frame} {held : List Input}
    (hs : InSession s S buf (.frame f :: held)) (hf : leavesSession f = true) :
    ∃ t, stepWith p s = .next t ∧ InSession t S buf held := by
  rcases hdec : decode f.cw with e | i
  · exact ⟨_, stepWith_illegal hs.inbox hdec, hs.lanes, hs.buf, hs.accepting, rfl⟩
  · have hkeeps : mayWriteLanes i = false := by simpa [leavesSession, hdec] using hf
    obtain ⟨hlanes, hbuilder, hheld⟩ := runWith_of_not_mayWriteLanes (p := p) (s := s.accept f held) hkeeps
    exact ⟨_, stepWith_frame hs.inbox hdec, hlanes.trans hs.lanes, hbuilder.buf.trans hs.buf,
      hbuilder.phase.trans hs.accepting, hheld⟩

/-- No frame is both: UPDATE writes lanes. -/
theorem not_isUpdate_of_leavesSession {f : Frame} (hf : leavesSession f = true) : isUpdate f = false := by
  by_contra hupdate
  have hdec := isUpdate_iff.1 (Bool.not_eq_false _ ▸ hupdate)
  simp [leavesSession, hdec, mayWriteLanes] at hf

/-- Feeding a chunk and then the rest is feeding both at once: Upd has absorbed whole windows of the whole (R173). -/
theorem finBuilder_updBuilder_append (p : Params) (S : Lanes) (buf c rest : List Byte) :
    finBuilder p (updBuilder p S buf c).1 ((updBuilder p S buf c).2 ++ rest) = finBuilder p S (buf ++ (c ++ rest)) := by
  have hwhole : ((buf ++ c).take ((buf ++ c).length / p.bb * p.bb)).length % p.bb = 0 := by
    rw [List.length_take, Nat.min_eq_left (Nat.div_mul_le_self _ _)]
    exact Nat.mul_mod_left _ _
  have habsorb := absorbPad_append p S ((buf ++ c).drop ((buf ++ c).length / p.bb * p.bb) ++ rest) hwhole
  rw [← List.append_assoc, List.take_append_drop, List.append_assoc] at habsorb
  exact congrArg (squeeze32 p) habsorb.symm

/-- The rest of a session closes it with the digest of what is pending and the UPDATE payloads to come: by induction on
its frames, each of which feeds its payload or leaves the session as it is. -/
theorem run_session {p : Params} {s : State} {S : Lanes} {buf : List Byte} {fs : List Frame}
    (hs : InSession s S buf (fs.map .frame ++ [.frame (frameOf .finalize [])]))
    (hfs : ∀ f ∈ fs, (isUpdate f = true ∧ fits p f.payload.length = true) ∨ leavesSession f = true) :
    ∃ u : State, (coreWith p).run (fs.length + 1) s =
      .next (u.complete (finBuilder p S (buf ++ sessionMessage fs)).2) ∧ u.phase = .finalized := by
  induction fs generalizing s S buf with
  | nil =>
    obtain ⟨rfl, rfl, hph, hin⟩ := hs
    have hstep := stepWith_completes (p := p) hin (decode_encode rfl) (finalize_errorFree rfl hph)
    rw [sessionMessage, List.flatMap_nil, List.append_nil]
    exact ⟨_, coreWith_run_succ hstep 0, rfl⟩
  | cons f fs ih =>
    obtain ⟨hf, hrest⟩ := List.forall_mem_cons.1 hfs
    rcases hf with ⟨hupdate, hfits⟩ | hleaves
    · obtain ⟨mid, hstep, hmid⟩ := stepWith_update hs hupdate hfits
      have hmessage : sessionMessage (f :: fs) = f.payload ++ sessionMessage fs := by simp [sessionMessage, hupdate]
      rw [List.length_cons, coreWith_run_succ hstep, hmessage, ← finBuilder_updBuilder_append]
      exact ih hmid hrest
    · obtain ⟨mid, hstep, hmid⟩ := stepWith_leavesSession p hs hleaves
      have hmessage : sessionMessage (f :: fs) = sessionMessage fs := by
        simp [sessionMessage, not_isUpdate_of_leavesSession hleaves]
      rw [List.length_cons, coreWith_run_succ hstep, hmessage]
      exact ih hmid hrest

/-- Settles O58: a session starts with zero lanes and nothing pending, and from there FINALIZE answers the digest. -/
theorem streamingEqualsOneShot : Obligations.StreamingEqualsOneShot := by
  intro p s x fs hx hfs hin
  obtain ⟨fresh, hstart, hsession⟩ := stepWith_startsSession p hx hin
  obtain ⟨u, hrun, hclosed⟩ := run_session hsession hfs
  rw [List.nil_append, finBuilder_zeroLanes] at hrun
  exact ⟨_, _, (coreWith_run_succ hstart _).trans hrun, getLast?_complete_responses _ _, rfl, rfl, hclosed⟩

end Machine
end Sys2Proof
end

section
/-! State access (44_state_access.md): the 64-byte image of the lanes, byte by byte (R43) and read back from itself, and
LOAD_STATE, READ_STATE and CLEAR_ERR (R190 to R192). -/

namespace Sys2Proof
namespace Machine

/-! ## The image of the lanes -/

/-- Byte `k` of lane `i`, counted from the bottom, is byte `4i + k` of the image (R190). -/
theorem get_lanesOfImage_byte (b : List Byte) (i : Fin 16) {k : Nat} (hk : k < 4) :
    ((lanesOfImage b).get i).extractLsb' (8 * k) 8 = byteAt b (4 * i.val + k) := by
  rw [get_lanesOfImage, le32_byte _ _ _ _ hk]
  have hcases : k = 0 ∨ k = 1 ∨ k = 2 ∨ k = 3 := by omega
  rcases hcases with rfl | rfl | rfl | rfl <;> rfl

/-- Byte `4i + k` of the image is byte `k` of lane `i`, counted from the bottom (R191). -/
theorem imageOfLanes_getElem? (S : Lanes) (i : Fin 16) {k : Nat} (hk : k < 4) :
    (imageOfLanes S)[4 * i.val + k]? = some ((S.get i).extractLsb' (8 * k) 8) := by
  rw [Nat.mul_comm, imageOfLanes, flatMap_getElem?_of_const _ _ 4 (fun _ => le4_length _) _ hk, laneNumbers_getElem?,
    Option.bind_some, le4_getElem? _ hk]

/-- A 64-byte payload has a byte for every byte of the lanes. -/
theorem getElem?_image {X : List Byte} (hX : X.length = 64) (i : Fin 16) {k : Nat} (hk : k < 4) :
    X[4 * i.val + k]? = some (((lanesOfImage X).get i).extractLsb' (8 * k) 8) := by
  rw [get_lanesOfImage_byte X i hk, getElem?_eq_some_byteAt (by omega)]

/-- The lanes keep every byte of their image: byte `q` stands in lane `q / 4`, at place `q % 4`. -/
theorem imageOfLanes_lanesOfImage {X : List Byte} (hX : X.length = 64) : imageOfLanes (lanesOfImage X) = X := by
  apply List.ext_getElem?
  intro q
  by_cases hq : q < 64
  · obtain ⟨i, k, hk, rfl⟩ : ∃ (i : Fin 16) (k : Nat), k < 4 ∧ q = 4 * i.val + k :=
      ⟨⟨q / 4, by omega⟩, q % 4, Nat.mod_lt q (by decide), (Nat.div_add_mod q 4).symm⟩
    rw [imageOfLanes_getElem? _ i hk, getElem?_image hX i hk]
  · rw [List.getElem?_eq_none (by rw [imageOfLanes_length]; omega), List.getElem?_eq_none (by omega)]

/-! ## LOAD_STATE, READ_STATE and CLEAR_ERR -/

theorem loadState_errorFree {p : Params} {s : State} (hin : s.payload.length = 64) :
    errorOf p .loadState s = .noError :=
  errorOf_eq_noError_iff.2 ⟨decide_eq_true hin, rfl⟩

theorem readState_errorFree {p : Params} {s : State} (hin : s.payload = []) : errorOf p .readState s = .noError :=
  errorOf_eq_noError_iff.2 ⟨admits_noPayload hin, rfl⟩

theorem clearErr_errorFree {p : Params} {s : State} (hin : s.payload = []) : errorOf p .clearErr s = .noError :=
  errorOf_eq_noError_iff.2 ⟨admits_noPayload hin, rfl⟩

/-- Settles O20: LOAD_STATE of 64 bytes raises no error, and what it writes is the lanes of the image. -/
theorem loadStateResult : Obligations.LoadStateResult :=
  fun _ hin => ⟨_, exec_completes (loadState_errorFree hin), (complete_answered _ _).of_same rfl rfl,
    fun i _ hk => (getElem?_image hin i hk).symm, ⟨rfl, rfl, rfl⟩, rfl⟩

/-- Settles O21: READ_STATE raises no error, and it writes nothing before it answers the image of the lanes. -/
theorem readStateResult : Obligations.ReadStateResult :=
  fun s hin => ⟨_, _, exec_completes (readState_errorFree hin), complete_answered _ _, imageOfLanes_length s.lanes,
    fun i _ => imageOfLanes_getElem? s.lanes i, rfl, ⟨rfl, rfl, rfl⟩, rfl⟩

/-- Settles O22: CLEAR_ERR raises no error, and the latch it clears is the ERR field of the STATUS after it. -/
theorem clearErrResult : Obligations.ClearErrResult :=
  fun _ hin => ⟨_, exec_completes (clearErr_errorFree hin), (complete_answered _ _).of_same rfl rfl, rfl,
    status_errField _, rfl, ⟨rfl, rfl, rfl⟩⟩

/-- The frame of a LOAD_STATE of 64 bytes: one response without error or data, and the lanes of the image. -/
theorem step_loadState {s : State} {X : List Byte} {held : List Input} (hX : X.length = 64)
    (hin : s.inbox = .frame (frameOf .loadState X) :: held) :
    ∃ t r, step s = .next t ∧ t.inbox = held ∧ t.responses = s.responses ++ [r] ∧ r.rerr = 0 ∧ r.data = [] ∧
      t.lanes = lanesOfImage X :=
  ⟨_, _, step_frameOf_completes hin rfl (loadState_errorFree hX), rfl, rfl, rfl, rfl, rfl⟩

/-- The frame of a READ_STATE: one response without error, with the image of the lanes. -/
theorem step_readState {s : State} {held : List Input} (hin : s.inbox = .frame (frameOf .readState []) :: held) :
    ∃ t r, step s = .next t ∧ t.responses = s.responses ++ [r] ∧ r.rerr = 0 ∧ r.data = imageOfLanes s.lanes :=
  ⟨_, _, step_frameOf_completes hin rfl (readState_errorFree rfl), rfl, rfl, rfl⟩

/-- Settles O54: the second command answers the image of the lanes that the first wrote from the payload. -/
theorem loadThenReadReturnsPayload : Obligations.LoadThenReadReturnsPayload := by
  intro s X held hX hin
  obtain ⟨mid, r1, hload, hheld, hresp1, hrerr1, hdata1, hlanes⟩ := step_loadState hX hin
  obtain ⟨t, r2, hread, hresp2, hrerr2, hdata2⟩ := step_readState hheld
  refine ⟨t, r1, r2, ?_, ?_, hrerr1, hdata1, hrerr2, ?_⟩
  · rw [run_succ hload, run_succ hread]
    rfl
  · rw [hresp2, hresp1, List.append_assoc]
    rfl
  · rw [hdata2, hlanes, imageOfLanes_lanesOfImage hX]

end Machine
end Sys2Proof
end

section
/-! Errors and the latch (60_exceptions.md): the one error of a frame and what its step does with STATUS.ERR (R202 to
R204), and the idle instance (R213). -/

namespace Sys2Proof
namespace Machine

/-- Settles O7: the step of an instance with nothing presented is its first case. -/
theorem idleInstanceHoldsState : Obligations.IdleInstanceHoldsState := by
  intro s hin
  simp [step, takeInput, hin]

/-! ## The error of a frame -/

/-- The error that a frame raises in the state `s` that has accepted it: an illegal word before any check of a command
(R202). -/
def frameError (f : Frame) (s : State) : ErrCode :=
  match decode f.cw with
  | .error _ => .illegal
  | .ok i => errorOf hardware i s

theorem frameError_of_illegal {f : Frame} {e : Illegal} (s : State) (hdec : decode f.cw = .error e) :
    frameError f s = .illegal := by
  simp [frameError, hdec]

theorem frameError_of_decode {f : Frame} {i : Instr} (s : State) (hdec : decode f.cw = .ok i) :
    frameError f s = errorOf hardware i s := by
  simp [frameError, hdec]

/-- The latch after a frame that raised `e` (R192, R204). -/
def errAfter (f : Frame) (e held : ErrCode) : ErrCode :=
  if e ≠ .noError then latch held e else if f.cw = encode .clearErr then .noError else held

theorem errAfter_of_error (f : Frame) {e : ErrCode} (held : ErrCode) (he : e ≠ .noError) :
    errAfter f e held = latch held e := if_pos he

theorem errAfter_of_clearErr {f : Frame} (held : ErrCode) (hcw : f.cw = encode .clearErr) :
    errAfter f .noError held = .noError := by
  simp [errAfter, hcw]

theorem errAfter_of_not_clearErr {f : Frame} (held : ErrCode) (hcw : f.cw ≠ encode .clearErr) :
    errAfter f .noError held = held := by
  simp [errAfter, hcw]

/-- Only CLEAR_ERR writes the latch without an error, and its word is the only one that decodes to it. -/
theorem written_err_eq_errAfter {f : Frame} {i : Instr} (p : Params) (s : State) (hdec : decode f.cw = .ok i) :
    (written p i s).err = errAfter f .noError s.err := by
  by_cases hi : i = .clearErr
  · subst hi
    rw [errAfter_of_clearErr _ (encode_of_decode hdec).symm]
    rfl
  · have hcw : f.cw ≠ encode .clearErr := by
      intro hcw
      have hclear : decode f.cw = .ok .clearErr := (decode_eq_ok_iff_eq_encode rfl).2 hcw
      exact hi (Except.ok.inj (hdec.symm.trans hclear))
    rw [written_err hi, errAfter_of_not_clearErr _ hcw]

/-- Every frame is answered with its error, and the latch takes that error. -/
theorem step_answers_frameError {s : State} {f : Frame} {held : List Input} (hin : s.inbox = .frame f :: held) :
    ∃ t data, step s = .next t ∧ Answered (s.accept f held) t (frameError f (s.accept f held)) data ∧
      t.err = errAfter f (frameError f (s.accept f held)) s.err := by
  rcases hdec : decode f.cw with e | i
  · rw [frameError_of_illegal _ hdec]
    exact ⟨_, [], step_illegal hin hdec, (raise_raised _ _).answered,
      (errAfter_of_error (e := .illegal) f s.err nofun).symm⟩
  · rw [frameError_of_decode _ hdec, step_frame hin hdec]
    by_cases he : errorOf hardware i (s.accept f held) = .noError
    · rw [he, exec_completes he]
      exact ⟨_, _, rfl, (complete_answered _ _).of_same (written_responses ..) (written_inbox ..),
        written_err_eq_errAfter hardware (s.accept f held) hdec⟩
    · obtain ⟨t, hexec, hraised⟩ := exec_raises rfl he
      exact ⟨t, [], hexec, hraised.answered, hraised.err.trans (errAfter_of_error f s.err he).symm⟩

/-! ## The order of the checks -/

theorem errorOf_of_refused {p : Params} {i : Instr} {s : State}
    (h : (payloadClass i).admits p s.payload.length = false) : errorOf p i s = .payload :=
  errorOf_eq_payload_iff.2 h

theorem errorOf_of_admitted {p : Params} {i : Instr} {s : State}
    (h : (payloadClass i).admits p s.payload.length = true) : errorOf p i s = extraCheck p i s := if_pos h

/-- Settles O25: the step answers the error of the frame; the word, the payload and the extra check of the command
come in the order of R202, and each command has at most one extra check. -/
theorem responseReportsFirstError : Obligations.ResponseReportsFirstError := by
  intro s f held hin
  obtain ⟨t, data, hstep, hanswered, -⟩ := step_answers_frameError hin
  refine ⟨t, _, hstep, hanswered.response, ?_⟩
  rcases hdec : decode f.cw with e | i
  · rw [frameError_of_illegal _ hdec]
    rfl
  · rw [frameError_of_decode _ hdec]
    dsimp only
    rcases hadmits : (payloadClass i).admits hardware f.payload.length with _ | _
    · rw [errorOf_of_refused hadmits]
      rfl
    · rw [errorOf_of_admitted hadmits]
      cases i with
      | update | finalize => cases hph : s.phase <;> simp [extraCheck, hph, ErrCode.code]
      | absorbBlk => by_cases hlen : f.payload.length % 32 = 0 <;> simp [extraCheck, hlen, ErrCode.code]
      | squeeze n => by_cases hn : n % 32 = 0 <;> simp [extraCheck, hn, ErrCode.code]
      | hash outlen => by_cases hlen : outlen = 32 <;> simp [extraCheck, Config.digestBytes, hlen, ErrCode.code]
      | permute | absorbPad | init | loadState | readState | clearErr => simp [extraCheck, ErrCode.code]

/-! ## The latch -/

/-- Both kinds of reset take effect in one step (R230). -/
theorem step_reset {s : State} {x : Input} {held : List Input} (hx : x = .reset ∨ ∃ f, x = .frameCutByReset f)
    (hin : s.inbox = x :: held) : step s = .next (s.assertReset held) := by
  rcases hx with rfl | ⟨f, rfl⟩ <;> simp [step, takeInput, hin]

/-- Settles O26: a frame leaves `errAfter` of the error it is answered with, and a reset leaves the reset state. -/
theorem errLatchesFirstError : Obligations.ErrLatchesFirstError := by
  refine ⟨fun s t f held hin hstep => ?_, fun s t x held hx hin hstep => ?_⟩
  · obtain ⟨u, data, hu, hanswered, herr⟩ := step_answers_frameError hin
    cases hu.symm.trans hstep
    refine ⟨_, hanswered.response, ?_⟩
    dsimp only
    rw [herr, Ne, code_eq_zero]
    refine ⟨fun he hclear => ?_, fun he hlatched => ?_, fun he hcw => ?_, fun he hcw => ?_⟩
    · rw [errAfter_of_error f _ he, hclear, latch_noError]
    · rw [errAfter_of_error f _ he, latch_held hlatched]
    · rw [he, errAfter_of_not_clearErr _ hcw]
    · rw [he, errAfter_of_clearErr _ hcw]
  · cases (step_reset hx hin).symm.trans hstep
    rfl

end Machine
end Sys2Proof
end

section
/-! Reset (70_reset_and_hazards.md): the values that both kinds of reset leave (R230), and the pair INIT, CLEAR_ERR that
leaves the same values (R231). -/

namespace Sys2Proof
namespace Machine

/-! ## The values a reset leaves -/

/-- The instance holds its reset values (R32), and the inputs `held` wait. Nothing is said of the responses, in which
a reset and a pair of commands differ. -/
structure HoldsResetValues (t : State) (held : List Input) : Prop where
  lanes : t.lanes = zeroLanes
  buf : t.buf = []
  plen : t.plen = 0
  phase : t.phase = .accepting
  err : t.err = .noError
  busy : t.busy = false
  payload : t.payload = []
  inbox : t.inbox = held

/-- STATUS is a function of the four fields it reports (R26). -/
theorem HoldsResetValues.status {t : State} {held : List Input} (h : HoldsResetValues t held) : t.status = 0 := by
  rw [State.status, h.err, h.phase, h.busy, h.plen]
  decide

theorem assertReset_holdsResetValues (s : State) (held : List Input) : HoldsResetValues (s.assertReset held) held :=
  ⟨reset_lanes, rfl, rfl, rfl, rfl, rfl, rfl, rfl⟩

/-- Settles O8: both kinds of reset step to `assertReset`, which holds the reset values and adds no response. -/
theorem resetInputLeavesResetState : Obligations.ResetInputLeavesResetState := by
  intro s x held hx hin
  have hreset := assertReset_holdsResetValues s held
  exact ⟨_, step_reset hx hin, fun i => by rw [hreset.lanes, get_zeroLanes], hreset.buf, hreset.plen, hreset.phase,
    hreset.err, hreset.busy, hreset.status, hreset.payload, State.assertReset_responses s held, hreset.inbox⟩

/-! ## INIT and then CLEAR_ERR -/

/-- The frame of an INIT, by its writes: PLEN, which `step_init` leaves out, among them. -/
theorem step_init_newSession {s : State} {held : List Input} (hin : s.inbox = .frame (frameOf .init []) :: held) :
    step s = .next ((s.accept (frameOf .init []) held).newSession.complete []) :=
  step_frameOf_completes hin rfl (init_errorFree rfl)

/-- The frame of a CLEAR_ERR, by its one write. -/
theorem step_clearErr {s : State} {held : List Input} (hin : s.inbox = .frame (frameOf .clearErr []) :: held) :
    step s = .next ((s.accept (frameOf .clearErr []) held).clearLatch.complete []) :=
  step_frameOf_completes hin rfl (clearErr_errorFree rfl)

/-- INIT writes every field of the builder, CLEAR_ERR the latch that INIT keeps, and the answer ends the command. -/
theorem run_init_clearErr {s : State} {held : List Input}
    (hin : s.inbox = .frame (frameOf .init []) :: .frame (frameOf .clearErr []) :: held) :
    ∃ t, core.run 2 s = .next t ∧ HoldsResetValues t held := by
  have hinit := step_init_newSession hin
  have hclear := step_clearErr (held := held)
    (s := (s.accept (frameOf .init []) (.frame (frameOf .clearErr []) :: held)).newSession.complete []) rfl
  exact ⟨_, (run_succ hinit 1).trans (run_succ hclear 0), rfl, rfl, rfl, rfl, rfl, rfl, rfl, rfl⟩

/-- Settles O10: the two commands and the reset leave the same values, those of the reset state. -/
theorem initClearErrEqualsReset : Obligations.InitClearErrEqualsReset := by
  intro s held hin
  obtain ⟨t, hrun, ht⟩ := run_init_clearErr hin
  have hu := assertReset_holdsResetValues { s with inbox := .reset :: held } held
  exact ⟨t, _, hrun, step_reset (.inl rfl) rfl, ht.lanes.trans hu.lanes.symm, ht.buf.trans hu.buf.symm,
    ht.plen.trans hu.plen.symm, ht.phase.trans hu.phase.symm, ht.err.trans hu.err.symm, ht.busy.trans hu.busy.symm,
    ht.payload.trans hu.payload.symm, ht.status.trans hu.status.symm, ht.inbox.trans hu.inbox.symm⟩

end Machine
end Sys2Proof
end
